-- ==== Sys2Proof/Word.lean ====
section
/-!
DEFINITION. The word types of the MX3 and the identifiers its manual numbers things by.
A register is a 64-bit vector here even when the manual gives it 32 bits: its layout then says that the upper half does not exist.
-/

namespace Sys2Proof

/-- A byte of memory (R12 orders bytes within a value, little end first). -/
abbrev Byte := BitVec 8

/-- A register's contents, 32 or 64 bits of it in use. -/
abbrev Word64 := BitVec 64

/-- A chip-local address, 48 bits (R36). -/
abbrev Addr := BitVec 48

/-- A status code GS_xxxx (R540). -/
abbrev Status := BitVec 16

/-- A Chorus value: 64 bits of nanoseconds and 8 fraction bits (R253). -/
abbrev Chorus := BitVec 72

/-- Logical core id (R21). -/
abbrev CoreId := Fin 800

/-- Physical core id (R21). -/
abbrev PhysId := Fin 832

/-- Context of a core (R73). -/
abbrev CtxId := Fin 4

/-- Partition (R403). -/
abbrev PartId := Fin 16

/-- PCIe function (R400). -/
abbrev FuncId := Fin 64

/-- Link, and port, number (R338). -/
abbrev LinkId := Fin 16

/-- HBM stack (R26). -/
abbrev StackId := Fin 8

/-- Leapfrog channel (R373). -/
abbrev ChanId := Fin 16

/-- Leapfrog group (R374). -/
abbrev GroupId := Fin 64

/-- Firmware processor (R454). -/
abbrev ProcId := Fin 35

/-- Compute die (R21). -/
abbrev DieId := Fin 2

/-- Flag number within a core (R234). -/
abbrev FlagId := Fin 4096

/-- Bits [55:0] of an instruction word (R154); the opcode, bits [63:56], is the constructor's. -/
abbrev IBits := BitVec 56

end Sys2Proof
end

