-- ==== Sys2Proof/Types.lean ====
section
/-!
DEFINITION. The types of what commands carry: who issues an access, the contents of the messages and requests that
reach a unit from outside it, and the outcomes that the world outside the model decides (an error found in a stored
word, a status a remote chip answers).
-/

namespace Sys2Proof

/-- The variants of R7. -/
inductive Variant where
  | a800 | a640 | n640
  deriving DecidableEq, Repr

/-- Who issues an access (R36, R38): a core's sequencer, DMA or inbound engine; a firmware processor (R429: 0 security
core, 1 power core, 2 scheduler core, 3 to 34 cluster wardens); a function's host; the Leapfrog engine; the
sideband management interface (R522). -/
inductive Agent where
  | core (k : CoreId)
  | fw (i : ProcId)
  | host (f : FuncId)
  | lf
  | sideband
  deriving DecidableEq, Repr

/-- A byte that a transfer carries; `none` is a byte of a poisoned word (R187). -/
abbrev TByte := Option Byte

/-- What is wrong with the stored bits of a word or block, as its decoder sees them (R185 rows 3 to 6, R384). -/
inductive Err where
  | ok          -- no error
  | corr        -- within the correction bound
  | ue          -- beyond it
  | mismatch    -- decoded as an access to another address
  deriving DecidableEq, Repr

/-- What has happened to the stored bits that a read meets: `wrong n`: n of the stored bits of a word (of the 72 stored
symbols of an HBM block, R382) are in error; `index n`: the storage delivers, intact, a word whose index (a block whose
address symbols) differs in n bits (symbols) (R183, R382). -/
inductive Upset where
  | wrong (n : Nat)
  | index (n : Nat)
  deriving DecidableEq, Repr

/-- The at-memory operations that a bank performs (R191, R192). -/
inductive AtOp where
  | count (size : Nat) (inc : Word64)
  | ccount (size : Nat) (exp inc : Word64)
  | arm (size : Nat) (thr : Word64) (flag : FlagId)
  deriving DecidableEq, Repr

/-- The operations of a bank access (R176, R178). -/
inductive BankOp where
  | read
  | write (data : List TByte)
  | atMem (op : AtOp)
  deriving DecidableEq, Repr

/-- The ports of R176, in the order R178 grants them. -/
inductive Port where
  | seq | ma | ve | dma | inb
  deriving DecidableEq, Repr

/-- A request at a bank: `off` is the window offset of its first byte, all of it within one 64-byte row. -/
structure BankReq where
  port : Port
  op   : BankOp
  off  : BitVec 22
  len  : Nat
  ctx  : Option CtxId
  deriving DecidableEq, Repr

/-- Where a message came from: chip, logical core, context (R196). -/
structure Source where
  chip : BitVec 14
  core : CoreId
  ctx  : CtxId
  deriving DecidableEq, Repr

/-- A put as it reaches a destination inbound engine (R209, R210, R218); `job` names the sender's partition (R406),
`none` the firmware binding of R236; `age` is the 24-bit stamp of R222. -/
structure PutMsg where
  src   : Source
  job   : Option (BitVec 16)
  core  : BitVec 10
  off   : BitVec 22
  ctl   : Word64
  final : Bool
  data  : List TByte
  age   : Nat
  tag   : Nat
  deriving DecidableEq, Repr

/-- A credit request or return as it reaches the destination (R196, R198). -/
structure CreditMsg where
  src   : Source
  job   : Option (BitVec 16)
  core  : BitVec 10
  off   : BitVec 22
  arg   : Word64
  age   : Nat
  xfer  : Nat
  deriving DecidableEq, Repr

/-- A remote write that is no put: a DPUT into another core's window or a Leapfrog delivery (R194, R197). With `diag` it is
an agent's write through the physical-core window of a position (R36, R40), and the core of the command does not matter. -/
structure WriteMsg where
  src  : Source
  part : Option PartId
  lf   : Bool
  gen  : BitVec 4
  tag  : BitVec 8
  off  : BitVec 22
  data : List TByte
  xfer : Nat
  diag : Option (Agent × PhysId)
  deriving DecidableEq, Repr

/-- What a remote read asks of the destination's banks (R181, R191). -/
inductive ReadOp where
  | bytes (len : Nat)
  | count (size : Nat) (inc : Word64)
  | ccount (size : Nat) (exp inc : Word64)
  deriving DecidableEq, Repr

/-- A remote read or at-memory request as it reaches an inbound engine; `diag` as in a remote write (R40). -/
structure ReadMsg where
  src  : Source
  part : Option PartId
  off  : BitVec 22
  op   : ReadOp
  xfer : Nat
  rd   : Fin 32
  diag : Option (Agent × PhysId)
  deriving DecidableEq, Repr

/-- A beacon (R262): the sender's Chorus at transmission, and its echo of the last beacon it received from this end: this
end's Chorus at that transmission and the sender's at its reception, all in 1/256 ns. -/
structure Beacon where
  sent   : Nat
  echo   : Option (Nat × Nat)
  root   : BitVec 14
  hops   : Nat
  state  : Nat
  ebound : Nat
  resent : Bool
  link   : LinkId
  deriving DecidableEq, Repr

/-- How a host read that the chip issued ended: its bytes, or a completion error (R285, R439, R488). -/
inductive HostRead where
  | bytes (b : List Byte)
  | error
  deriving DecidableEq, Repr

/-- The instruction that a fault stops a context at (R161): a word that reaches issue in the running context, whose opcode says
the rest (R158, R159 check 1), or the instruction at place `seq` in program order. -/
inductive FaultAt where
  | word (w : Word64)
  | place (seq : Nat)
  deriving DecidableEq, Repr

/-- The requests that arrive at a bank in one CCLK of its core (R176, R178). -/
structure BankCycle where
  cclk : Nat
  reqs : List BankReq
  deriving DecidableEq, Repr

/-- A response as it comes from another chip: its status and its age stamp (R222). -/
structure FarResponse where
  status : Status
  age    : BitVec 24
  deriving DecidableEq, Repr

/-- What a barrier's completion notice says of the launch (R274): the instant L, and the root of the barrier root's Chorus tree. -/
structure BarrierLaunch where
  inst : BitVec 64
  tree : BitVec 14
  deriving DecidableEq, Repr

/-- Who makes an access of a firmware processor (R432): the processor, and the component, none for the supervisor. -/
structure FwPart where
  proc : ProcId
  comp : Option Byte
  deriving DecidableEq, Repr

/-- A flash address, and whether the device exceeds its time limit there (R523). -/
structure FlashAt where
  addr : BitVec 32
  late : Bool
  deriving DecidableEq, Repr

/-- What KERNEL_DISPATCH starts (R236, R290): a fetched descriptor by the front end's serial number, or the 64 bytes of a
descriptor of the scheduler core's internal ring. -/
inductive DescSrc where
  | fetched (id : BitVec 64)
  | internal (b : List Byte)
  deriving DecidableEq, Repr

/-- A stamped item that can arrive late (R302). -/
structure Stamped where
  kind  : Nat
  part  : PartId
  core  : Option CoreId
  func  : FuncId
  ident : Nat
  epoch : BitVec 4
  deriving DecidableEq, Repr

end Sys2Proof

namespace Sys2Proof

/-- A Grenug command as the scheduler core has it (R434): the function that issued it, the message slot and TAG it came
in (`none` when a firmware processor issues it itself), and its argument bytes. -/
structure Cmd where
  func : FuncId
  slot : Option (Fin 16)
  tag  : BitVec 8
  args : List Byte
  deriving DecidableEq, Repr

/-- A command that writes host memory, and whether the host address completes with an error (R450). -/
structure HostCmd where
  cmd  : Cmd
  lost : Bool
  deriving DecidableEq, Repr

/-- What a partner sends in training (R321): with `hello` the fields of its hello; else its pattern at the rate of the
phase, with the lanes on which this end passes the phase by it. -/
structure Hello where
  hello : Bool
  chip  : BitVec 14
  link  : LinkId
  gen   : BitVec 2
  lanes : BitVec 2
  deriving DecidableEq, Repr

/-- Why a link goes down (R325). -/
inductive DownCause where
  | signal | clock | silence | replays | ordered
  deriving DecidableEq, Repr

/-- What an engine message carries (R349, R353, R356, R362): a window of a receive half, with the half's length and, for
PERMUTE, its element size and capacity; data at an offset of a half of `total` bytes, with the status of the read that gave them; bytes
performed; the end of the receiver's send or receive half with a status; a heartbeat. -/
inductive LfMsgKind where
  | window (base len total key : Nat)
  | data (off total : Nat) (bytes : List TByte) (status : Status)
  | ack (len : Nat)
  | fail (toSend : Bool) (status : Status)
  | beat
  deriving DecidableEq, Repr

/-- An engine message (R362): `fromNext` says that it comes from the receiver's NEXT, `rank` is the sender's rank. -/
structure LfMsg where
  group    : GroupId
  epoch    : BitVec 4
  opseq    : BitVec 32
  fromNext : Bool
  rank     : BitVec 14
  kind     : LfMsgKind
  deriving DecidableEq, Repr

/-- A packet on the on-chip network or waiting for a link port (R28). A `ctl` packet is a message of the link controllers
or the Leapfrog engine: kind 1 a barrier arrival (group, member, step), 2 a completion notice (group, step, instant),
5 a re-form notice (group, FRANK, EPOCH, instant). An `engine` packet carries the hops of its route that are still to come
(R361). Each is a message, which the on-chip network carries in packets of 64 to 512 B of payload (R25). -/
inductive Packet where
  | put (m : PutMsg) (chip : Nat)
  | credit (m : CreditMsg) (chip : Nat) (ret : Bool)
  | write (m : WriteMsg) (core : Nat)
  | read (m : ReadMsg) (core : Nat)
  | resp (dst : Source) (xfer : Nat) (status : Status) (word : Word64) (age : Nat)
  | ctl (kind dst : Nat) (words : List Nat)
  | engine (dst : Nat) (route : List (Fin 4)) (m : LfMsg)
  deriving DecidableEq, Repr

/-- A packet at the link controllers (R316 to R319): source and destination chip, what it carries, the port it came in by
(`none` when it was injected here), and whether it has crossed the wrap link of its dimension (R317). -/
structure NetPkt where
  src     : BitVec 14
  dst     : BitVec 14
  pkt     : Packet
  inPort  : Option (Fin 4)
  crossed : Bool
  deriving DecidableEq, Repr

/-- A flit as it arrives (R324): its port sequence number, whether it decoded and its CRC held, what FEC saw, the number
that it acknowledges, and the packet that it carries. -/
structure Flit where
  seq  : BitVec 16
  ok   : Bool
  corr : Nat
  unc  : Nat
  ack  : BitVec 16
  pkt  : Option NetPkt
  deriving DecidableEq, Repr

/-- A re-form notice (R366). -/
structure Reform where
  frank : BitVec 14
  epoch : BitVec 4
  inst  : BitVec 64
  fromNext : Bool
  deriving DecidableEq, Repr

/-- A correctable-error bucket (R387). -/
inductive Bucket where
  | stack (s : StackId)
  | core (p : PhysId)
  deriving DecidableEq, Repr

/-- The BARs of R400. -/
inductive Bar where
  | bar0 | bar2 | bar4
  deriving DecidableEq, Repr

/-- The agents that translate (R415). -/
inductive TlbUser where
  | pos (p : PhysId)
  | fe
  | lf
  deriving DecidableEq, Repr

/-- A power domain id (R455). -/
abbrev Domain := Fin 864

/-- What the power controller finds at a sleep member beside the state (R461, R462): its engine performs an access or its
controller's queue is not empty, it is in a copy step or self-test, and an armed wake source fires in this tick. -/
structure SleepInputs where
  busy  : Bool
  regen : Bool
  wake  : Bool
  deriving DecidableEq, Repr

/-- What the slot record holds of one image slot (R479). -/
structure SlotInfo where
  state   : Nat
  tries   : Nat
  version : Nat
  setMin  : Nat
  setMax  : Nat
  svn     : Nat
  digest  : Nat
  bad     : Nat
  deriving DecidableEq, Repr

/-- The slot record (R479): ACT and PREV, 0 for A; `why` is the reason code that R484 stores. -/
structure SlotRec where
  act  : Nat
  prev : Nat
  a    : SlotInfo
  b    : SlotInfo
  why  : Nat
  deriving DecidableEq, Repr

/-- The settings block (R483): its format, BOOT_FILL, and the values of the PWR, CHR and LNK scopes and of TOP_REGEN_CFG
as (shadow register, value) pairs. -/
structure Settings where
  fmt      : Nat
  bootFill : Bool
  regs     : List (Nat × Word64)
  deriving DecidableEq, Repr

/-- A position in the inventory record (R539, R545): its state as TOP_POS names it, its slot, spare rows used over its
banks. -/
structure InvPos where
  state : Nat
  slot  : Nat
  deriving DecidableEq, Repr

/-- A record kept in two copies, each with its SEQ; `none` is a copy whose CRC is not valid (R478). -/
structure TwoCopies (α : Type) where
  c0 : Option (Nat × α)
  c1 : Option (Nat × α)
  deriving DecidableEq, Repr

/-- What a reader takes: the copy with a valid CRC and the higher SEQ; none where the record is unreadable (R478). -/
def TwoCopies.read {α : Type} (t : TwoCopies α) : Option α :=
  match t.c0, t.c1 with
  | some x, some y => if y.1 ≤ x.1 then some x.2 else some y.2
  | some x, none => some x.2
  | none, some y => some y.2
  | none, none => none

/-- A writer overwrites the copy that a reader does not take, with SEQ one higher (R478). -/
def TwoCopies.write {α : Type} (t : TwoCopies α) (v : α) : TwoCopies α :=
  match t.c0, t.c1 with
  | some x, some y => if y.1 ≤ x.1 then { t with c1 := some (x.1 + 1, v) } else { t with c0 := some (y.1 + 1, v) }
  | some x, none => { t with c1 := some (x.1 + 1, v) }
  | none, some y => { t with c0 := some (y.1 + 1, v) }
  | none, none => { t with c0 := some (1, v) }

/-- What a boot meets outside the machine (R480 to R484, R397, R398): the copies of the records as the flash holds them where
the machine does not know them, whether the flash reports its size as R524 wants it, the address straps (R517), whether the
images of slots A and B pass their signature and
digest and the PLLs lock, the positions, pseudo-channels' primaries, stacks, links and bridge that fail the checker
self-test, the positions that fail the core test and the stacks that do not train, the ports that face BML-3 partners when
the CHR settings are checked, and the processors that never reach RUN. -/
structure BootInputs where
  slots     : TwoCopies SlotRec
  settings  : TwoCopies Settings
  inv       : TwoCopies (List InvPos)
  flash     : Bool
  straps    : BitVec 2
  sigA      : Bool
  sigB      : Bool
  pll       : Bool
  failPos   : List PhysId
  failTest  : List PhysId
  pcDup     : BitVec 10
  offline   : List StackId
  untrained : List StackId
  deadLnk   : List LinkId
  deadBr    : Bool
  mx3       : List (Fin 4)
  failProc  : List ProcId
  deriving DecidableEq, Repr

/-- What the security core's checks find in an image (R479, R489). -/
structure ImageCheck where
  sig     : Bool
  version : Nat
  setMin  : Nat
  setMax  : Nat
  svn     : Nat
  digest  : Nat
  deriving DecidableEq, Repr

/-- The instructions of the TAP (R525): EXTEST_PULSE and EXTEST_TRAIN are `pulse` and `train`. -/
inductive Tap where
  | bypass | idcode | sample | extest | pulse | train
  deriving DecidableEq, Repr

/-- How a swap of every processor went (R490, R491): the processor that did not reach RUN on the new image, and those that
fail on the old image too. -/
structure SwapOutcome where
  fails : Option ProcId
  dead  : List ProcId
  deriving DecidableEq, Repr

end Sys2Proof
end

