-- ==== Sys2Proof/Syntax.lean ====
section
/-!
DEFINITION. The commands of the MX3, one constructor per row of the table of operations and events. A command is
something that happens at the chip from outside the modelled state: an instruction that reaches issue (`f` is bits [55:0]
of its word, its opcode being the constructor's), a register access, a message that arrives, a timer or condition that
comes due. Operands carry what the state does not hold.
-/

namespace Sys2Proof

/-- The commands. -/
inductive Instr where
  /-- REGISTER_WRITE (R13). A write to a register that has no row of its own sets, clears or triggers its fields by access code, or is discarded with a TOP_REG_ERR capture when reserved bits are set or a range check fails. -/
  | registerWrite (a : Agent) (addr : Addr) (wide : Bool) (v : Word64)
  /-- BRIDGE_FLIT_REPLAY (R20). A die-to-die bridge flit that fails its CRC is replayed, adding 20 FCLK to that flit's latency. -/
  | bridgeFlitReplay (b : Fin 3) (ok : Bool)
  /-- BRIDGE_FAILED (R20). After 16 consecutive failed replays of one flit, the bridge declares itself failed and reports to the security core. -/
  | bridgeFailed (b : Fin 3)
  /-- CCLK_RELOCK_COMPLETE (R35). The CCLK PLL of a die finishes relocking, and the held dual-clock queues resume at the new rate. -/
  | cclkRelockComplete (d : DieId)
  /-- MHOLD (R74). The matrix instruction MHOLD is checked at issue and queued to load a held buffer. -/
  | mhold (k : CoreId) (f : IBits)
  /-- MHOLD_LOAD (R75). A queued MHOLD starts loading its buffer at four cell rows per CCLK once earlier loads and MMULs on that buffer allow it. -/
  | mholdLoad (k : CoreId)
  /-- MMUL (R76). The matrix instruction MMUL is checked at issue and queued to stream vectors against a held buffer into an accumulator tile. -/
  | mmul (k : CoreId) (f : IBits)
  /-- MMUL_STREAM (R79). A queued MMUL starts streaming when earlier MMULs and the MHOLDs of its buffer allow it, and each vector enters under the credit rule of R84. -/
  | mmulStream (k : CoreId) (errs : List (BitVec 16 × Upset))
  /-- MDRAIN (R105). The matrix instruction MDRAIN is checked at issue and queued to drain an accumulator tile to scratchpad. -/
  | mdrain (k : CoreId) (f : IBits)
  /-- MDRAIN_RUN (R109). A drain starts once its waits are met, reading tile rows, writing memory rows, writing the status word and setting its flag. -/
  | mdrainRun (k : CoreId) (errs : List (BitVec 16 × Upset))
  /-- MDISCARD (R77). The matrix instruction MDISCARD closes an open tile without changing its rows. -/
  | mdiscard (k : CoreId) (f : IBits)
  /-- MATRIX_OPERAND_READ_FAULT (R90). An operand row read returns an uncorrectable or poisoned word, so MHOLD empties its buffer or MMUL closes its tile and faults. -/
  | matrixOperandReadFault (k : CoreId) (word : BitVec 19) (u : Upset)
  /-- BALLAST (R84). In a CCLK without a ready vector and with enough credit, the array runs a ballast CCLK that replays the last real vector. -/
  | ballast (k : CoreId)
  /-- LEVEL_RISE (R85). After RISE_W × 16 busy CCLK, the activity level L increases by 1 toward LMAX. -/
  | levelRise (k : CoreId)
  /-- LEVEL_FALL (R85). After the hold or ramp count of idle CCLK expires, L decreases by 1, and Q is set to 0 when L reaches 0. -/
  | levelFall (k : CoreId)
  /-- MA_CTX_ACC_WRITE (R83). A write to MA_CTX_ACC_k changes a context's accumulator range and closes every open tile of that context, or is discarded on overlap. -/
  | maCtxAccWrite (a : Agent) (k : CoreId) (c : CtxId) (v : BitVec 32)
  /-- MA_BALLAST_CTL_WRITE (R87). A write to MA_BALLAST_CTL sets the ballast enable, hold and ramp from the next CCLK. -/
  | maBallastCtlWrite (a : Agent) (k : CoreId) (v : BitVec 32)
  /-- MA_RISE_CTL_WRITE (R88). A write to MA_RISE_CTL sets LMAX and RISE_W, and lowers L to a reduced LMAX in the next CCLK. -/
  | maRiseCtlWrite (a : Agent) (k : CoreId) (v : BitVec 32)
  /-- VLD (R132). The vector instruction VLD loads 64 elements from scratchpad into a register or pair. -/
  | vld (k : CoreId) (f : IBits)
  /-- VST (R132). The vector instruction VST stores 64 elements from a register or pair to scratchpad. -/
  | vst (k : CoreId) (f : IBits)
  /-- VOP (R133). The chain-mode instruction VOP applies one operation of R119 across the 64 lanes. -/
  | vop (k : CoreId) (f : IBits)
  /-- VCVT (R134). The instruction VCVT converts every lane between formats and merges its indications into VE_XFLAGS_k. -/
  | vcvt (k : CoreId) (f : IBits)
  /-- VRED (R145). The instruction VRED reduces a register to a scalar summary written into SD, optionally clearing VE_XFLAGS_k. -/
  | vred (k : CoreId) (f : IBits)
  /-- VROW (R148). The instruction VROW runs ROWMAX, ROWSUM or EXPNORM over scratchpad rows and writes outputs and status bytes. -/
  | vrow (k : CoreId) (f : IBits)
  /-- NLOAD (R125). The instruction NLOAD checks a newt program image and writes it into a program slot. -/
  | nload (k : CoreId) (f : IBits)
  /-- NRUN (R128). The instruction NRUN applies a loaded newt program to streams block by block and sets its flag when done. -/
  | nrun (k : CoreId) (f : IBits)
  /-- VSEED (R139). The instruction VSEED seeds the stochastic-rounding generator of the running context. -/
  | vseed (k : CoreId) (f : IBits)
  /-- VECTOR_START (R141). The vector engine issues a queued instruction once its register dependencies and the completion rule of R141 allow it. -/
  | vectorStart (k : CoreId) (corr : List (BitVec 11))
  /-- VECTOR_READ_FAULT (R142). A vector scratchpad read or register container is uncorrectable or poisoned, so the instruction faults and writes nothing further. -/
  | vectorReadFault (k : CoreId) (word : BitVec 19) (u : Upset) (cont : Option (BitVec 11))
  /-- VE_CTX_WRITE (R130). A write to VE_CTX_k assigns program slots to a context and empties cleared slots, or is discarded on overlap. -/
  | veCtxWrite (a : Agent) (k : CoreId) (c : CtxId) (v : BitVec 32)
  /-- INSTRUCTION_FETCH (R153). The sequencer fetches a 64-byte instruction row into its fetch buffer, holding a failed row as failed. -/
  | instructionFetch (k : CoreId) (row : BitVec 16)
  /-- NOP (R158). The sequencer instruction NOP does nothing. -/
  | nop (k : CoreId) (f : IBits)
  /-- ADD (R158). The sequencer instruction ADD writes RA + RB into RD. -/
  | add (k : CoreId) (f : IBits)
  /-- SUB (R158). The sequencer instruction SUB writes RA − RB into RD. -/
  | sub (k : CoreId) (f : IBits)
  /-- AND (R158). The sequencer instruction AND writes the bitwise AND into RD. -/
  | and (k : CoreId) (f : IBits)
  /-- OR (R158). The sequencer instruction OR writes the bitwise OR into RD. -/
  | or (k : CoreId) (f : IBits)
  /-- XOR (R158). The sequencer instruction XOR writes the bitwise XOR into RD. -/
  | xor (k : CoreId) (f : IBits)
  /-- SHL (R158). The sequencer instruction SHL shifts RA left by RB[5:0]. -/
  | shl (k : CoreId) (f : IBits)
  /-- SHRL (R158). The sequencer instruction SHRL shifts RA right logically by RB[5:0]. -/
  | shrl (k : CoreId) (f : IBits)
  /-- SHRA (R158). The sequencer instruction SHRA shifts RA right arithmetically by RB[5:0]. -/
  | shra (k : CoreId) (f : IBits)
  /-- MUL (R158). The sequencer instruction MUL writes the low 64 bits of RA × RB into RD. -/
  | mul (k : CoreId) (f : IBits)
  /-- MIN (R158). The sequencer instruction MIN writes the signed minimum into RD. -/
  | min (k : CoreId) (f : IBits)
  /-- MAX (R158). The sequencer instruction MAX writes the signed maximum into RD. -/
  | max (k : CoreId) (f : IBits)
  /-- MINU (R158). The sequencer instruction MINU writes the unsigned minimum into RD. -/
  | minu (k : CoreId) (f : IBits)
  /-- MAXU (R158). The sequencer instruction MAXU writes the unsigned maximum into RD. -/
  | maxu (k : CoreId) (f : IBits)
  /-- SLT (R158). The sequencer instruction SLT writes 1 into RD if RA < RB signed, else 0. -/
  | slt (k : CoreId) (f : IBits)
  /-- SLTU (R158). The sequencer instruction SLTU writes 1 into RD if RA < RB unsigned, else 0. -/
  | sltu (k : CoreId) (f : IBits)
  /-- ADDI (R158). The sequencer instruction ADDI adds a sign-extended immediate. -/
  | addi (k : CoreId) (f : IBits)
  /-- ANDI (R158). The sequencer instruction ANDI ANDs a zero-extended immediate. -/
  | andi (k : CoreId) (f : IBits)
  /-- ORI (R158). The sequencer instruction ORI ORs a zero-extended immediate. -/
  | ori (k : CoreId) (f : IBits)
  /-- XORI (R158). The sequencer instruction XORI XORs a zero-extended immediate. -/
  | xori (k : CoreId) (f : IBits)
  /-- SHLI (R158). The sequencer instruction SHLI shifts left by an immediate. -/
  | shli (k : CoreId) (f : IBits)
  /-- SHRLI (R158). The sequencer instruction SHRLI shifts right logically by an immediate. -/
  | shrli (k : CoreId) (f : IBits)
  /-- SHRAI (R158). The sequencer instruction SHRAI shifts right arithmetically by an immediate. -/
  | shrai (k : CoreId) (f : IBits)
  /-- SLTI (R158). The sequencer instruction SLTI compares RA with a sign-extended immediate. -/
  | slti (k : CoreId) (f : IBits)
  /-- LIL (R158). The sequencer instruction LIL loads a 48-bit immediate sign-extended into RD. -/
  | lil (k : CoreId) (f : IBits)
  /-- LIH (R158). The sequencer instruction LIH sets RD[63:48] from a 16-bit immediate. -/
  | lih (k : CoreId) (f : IBits)
  /-- B (R165). The sequencer instruction B branches to TARGET when its condition holds. -/
  | b (k : CoreId) (f : IBits)
  /-- BL (R158). The sequencer instruction BL writes the link register and branches to TARGET. -/
  | bl (k : CoreId) (f : IBits)
  /-- BX (R158). The sequencer instruction BX writes the link register and branches to RA[21:0]. -/
  | bx (k : CoreId) (f : IBits)
  /-- SLD (R163). The sequencer instruction SLD loads a scalar from the core's own scratchpad. -/
  | sld (k : CoreId) (f : IBits)
  /-- SST (R163). The sequencer instruction SST stores a scalar to the core's own scratchpad and invalidates a fetched row it hits. -/
  | sst (k : CoreId) (f : IBits)
  /-- RLD (R164). The sequencer instruction RLD reads a register at a chip-local address. -/
  | rld (k : CoreId) (f : IBits)
  /-- RST (R164). The sequencer instruction RST posts a register write at a chip-local address. -/
  | rst (k : CoreId) (f : IBits)
  /-- TIME (R167). The sequencer instruction TIME writes local Chorus, whole or fraction, into RD. -/
  | time (k : CoreId) (f : IBits)
  /-- LAUNCH_AT (R168). The sequencer instruction LAUNCH_AT gates the context until a Chorus target, or releases at once and late. -/
  | launchAt (k : CoreId) (f : IBits)
  /-- LAUNCH_RELEASE (R168). Local Chorus reaches a pending LAUNCH_AT target, so the sequencer writes RD and issues the next instruction. -/
  | launchRelease (k : CoreId) (c : CtxId)
  /-- END (R170). The sequencer instruction END stops issue and puts the context in ENDING. -/
  | endKernel (k : CoreId) (f : IBits)
  /-- KERNEL_COMPLETE (R170). A kernel in ENDING completes on a core once its queues are empty and every transfer has reached its completion point. -/
  | kernelComplete (k : CoreId) (c : CtxId)
  /-- TRAP (R171). The sequencer instruction TRAP faults with GS_0606 and records CODE. -/
  | trap (k : CoreId) (f : IBits)
  /-- CONTEXT_FAULT (R161). A unit reports a fault, so the context stops issuing, later work is discarded or stopped, and the fault record is captured. -/
  | contextFault (k : CoreId) (c : CtxId) (unit : Fin 8) (status : Status) (addr : Word64) (place : FaultAt)
  /-- BANK_ACCESS (R178). A scratchpad bank grants the earliest pending request and performs a whole-row read or write. -/
  | bankAccess (k : CoreId) (bank : Fin 32) (reqs : BankCycle) (errs : List (BitVec 19 × Upset))
  /-- CORRECTED_WRITEBACK (R185). A bank writes a corrected word back in an idle CCLK within 64 CCLK of the correcting read. -/
  | correctedWriteback (k : CoreId) (word : BitVec 19)
  /-- SP_SEG_WRITE (R182). A write that changes SP_SEG_s invalidates the segment, revoking grants, removing watches and making words unwritten. -/
  | spSegWrite (a : Agent) (k : CoreId) (seg : Fin 48) (v : BitVec 32)
  /-- COUNT (R191). The instruction COUNT adds an increment to a counter at its home and returns the old value. -/
  | count (k : CoreId) (f : IBits)
  /-- CCOUNT (R191). The instruction CCOUNT adds the increment only when the counter equals the expected value, and returns the old value. -/
  | ccount (k : CoreId) (f : IBits)
  /-- CTFLAG (R192). The instruction CTFLAG arms a watch on a counter, setting its flag at once when the threshold is already met. -/
  | ctflag (k : CoreId) (f : IBits)
  /-- CREDIT_REQ (R196). The instruction CREDIT_REQ asks a destination inbound engine for remote-write units. -/
  | creditReq (k : CoreId) (f : IBits)
  /-- CREDIT_RET (R198). The instruction CREDIT_RET returns a grant, whose units become HELD. -/
  | creditRet (k : CoreId) (f : IBits)
  /-- CREDIT_REQUEST_ARRIVAL (R196). A credit request reaches the destination inbound engine, which grants the longest FREE run or refuses. -/
  | creditRequestArrival (k : CoreId) (m : CreditMsg)
  /-- CREDIT_RETURN_ARRIVAL (R198). A credit return reaches the destination, which ends the matching grant or answers it stale. -/
  | creditReturnArrival (k : CoreId) (m : CreditMsg)
  /-- CREDIT_RESPONSE (R196). A credit response reaches the requester and writes RD, or is returned at once when it arrives after its timeout. -/
  | creditResponse (k : CoreId) (c : CtxId) (xfer : BitVec 64) (word : Word64) (age : BitVec 24)
  /-- CREDIT_TIMEOUT (R196). No credit response arrives within SP_CREDIT_CFG.TMO, so RD receives GS_0709. -/
  | creditTimeout (k : CoreId) (c : CtxId) (xfer : BitVec 64)
  /-- GRANT_LEASE_EXPIRY (R198). A grant that has lived SP_CREDIT_CFG.LEASE µs is revoked, and its units become HELD. -/
  | grantLeaseExpiry (k : CoreId) (tag : BitVec 8)
  /-- OFFER (R195). An SP_RX_CTL_k write with OP OFFER makes IDLE or HELD units FREE. -/
  | offer (a : Agent) (k : CoreId) (c : CtxId) (v : BitVec 32)
  /-- WITHDRAW (R195). An SP_RX_CTL_k write with OP WITHDRAW makes FREE or HELD units IDLE. -/
  | withdraw (a : Agent) (k : CoreId) (c : CtxId) (v : BitVec 32)
  /-- REMOTE_WRITE (R197). A remote write reaches an inbound engine and is checked against its grant, then written or dropped. -/
  | remoteWrite (k : CoreId) (m : WriteMsg)
  /-- REMOTE_READ (R181). A remote read or at-memory request reaches an inbound engine and is checked for ownership and served at the banks. -/
  | remoteRead (k : CoreId) (m : ReadMsg)
  /-- DGET (R208). The instruction DGET moves bytes from HBM or a scratchpad window into the issuing core's scratchpad. -/
  | dget (k : CoreId) (f : IBits)
  /-- DPUT (R208). The instruction DPUT moves bytes from the core's scratchpad to HBM or a scratchpad window on the chip. -/
  | dput (k : CoreId) (f : IBits)
  /-- PUT (R208). The instruction PUT sends bytes as a member of a put group to a core on any chip. -/
  | put (k : CoreId) (f : IBits)
  /-- PUTF (R220). The instruction PUTF sends the FINAL of a put group, optionally with bytes. -/
  | putf (k : CoreId) (f : IBits)
  /-- TRANSFER_COMPLETE (R206). A transfer reaches its completion point on the response, leaves the DMA queue and sets its flag on success. -/
  | transferComplete (k : CoreId) (id : BitVec 64) (resp : FarResponse)
  /-- XFER_TIMEOUT (R213). A transfer awaiting a response passes SP_XFER_CFG.TMO and completes with GS_0804. -/
  | xferTimeout (k : CoreId) (id : BitVec 64)
  /-- PUT_ARRIVAL (R218). A put header reaches the destination inbound engine, which checks age, ownership, generation, grant and entry, then writes or drops it. -/
  | putArrival (k : CoreId) (m : PutMsg)
  /-- FINAL_APPLY (R220). A held FINAL's group reaches its expected count, so the entry closes and DFLAG is set on success or the group fails. -/
  | finalApply (k : CoreId) (c : CtxId) (group : BitVec 16)
  /-- GROUP_HOLD_TIMEOUT (R221). A put-group entry stays OPEN for SP_XFER_CFG.HOLD and closes as failed, dropping its held FINAL. -/
  | groupHoldTimeout (k : CoreId) (c : CtxId) (group : BitVec 16)
  /-- FLUSH (R228). A write of FLUSH to SP_PG_CTL_k closes every OPEN entry of the context as failed. -/
  | flush (a : Agent) (k : CoreId) (c : CtxId)
  /-- SP_PG_CFG_WRITE (R226). A write to SP_PG_CFG_k changes MODE or BCGEN, closing entries or making old puts stale. -/
  | spPgCfgWrite (a : Agent) (k : CoreId) (c : CtxId) (v : BitVec 32)
  /-- FSET (R240). The instruction FSET sets one flag or the selected flags of a group. -/
  | fset (k : CoreId) (f : IBits)
  /-- FCLR (R240). The instruction FCLR clears one flag or the selected flags of a group. -/
  | fclr (k : CoreId) (f : IBits)
  /-- FTEST (R241). The instruction FTEST reads a group of 64 flags into RD and optionally clears those read as 1. -/
  | ftest (k : CoreId) (f : IBits)
  /-- WAIT (R242). The instruction WAIT gates the context until any or all listed flags are set or the timeout passes. -/
  | wait (k : CoreId) (f : IBits)
  /-- WAIT_SET (R244). The condition of a pending WAIT holds, so the flag unit writes the result word and clears matched flags with CLR. -/
  | waitSet (k : CoreId) (c : CtxId)
  /-- WAIT_TIMEOUT (R244). The core observes the WAIT deadline without the condition, so the outcome is TIMEOUT and FLG_TMO_CNT_k increases. -/
  | waitTimeout (k : CoreId) (c : CtxId)
  /-- FLG_CTX_WRITE (R251). A write to FLG_CTX_k changes a context's flag range and clears flags entering or leaving it, or is discarded. -/
  | flgCtxWrite (a : Agent) (k : CoreId) (c : CtxId) (v : BitVec 32)
  /-- FLG_FW_SET (R252). A firmware write to FLG_FW_SET sets the selected flags through the inbound engine. -/
  | flgFwSet (a : Agent) (k : CoreId) (v : Word64)
  /-- FLG_FW_CLR (R252). A firmware write to FLG_FW_CLR clears the selected flags through the inbound engine. -/
  | flgFwClr (a : Agent) (k : CoreId) (v : Word64)
  /-- BEACON_SEND (R262). Every 1 µs, the link controller sends a beacon on each port that carries beacons. -/
  | beaconSend (p : Fin 4)
  /-- BEACON_RECEIVE (R263). A beacon from the parent yields a delay and offset measurement that trims, slews or steps Chorus and moves the discipline state. -/
  | beaconReceive (p : Fin 4) (m : Beacon)
  /-- TIMED_START (R259). Local Chorus reaches a descriptor's target, and each named core starts the held kernel. -/
  | timedStart (k : CoreId) (c : CtxId)
  /-- COMMIT_AT (R268). The Grenug command COMMIT_AT checks the named shadow scopes and accepts or rejects a commit at a Chorus instant. -/
  | commitAt (cmd : Cmd)
  /-- COMMIT_CANCEL (R272). The Grenug command COMMIT_CANCEL ends a pending commit without applying it. -/
  | commitCancel (cmd : Cmd)
  /-- BARRIER_NOTICE (R274). A barrier completion notice with launch instant L reaches a member, which schedules the waiting descriptors. -/
  | barrierNotice (g : GroupId) (step : BitVec 32) (launch : BarrierLaunch)
  /-- BARRIER_TIMEOUT (R275). COMPLETED does not reach the awaited step within CHR_BARRIER_CFG.TMO, so the descriptor fails and the group is marked failed. -/
  | barrierTimeout (id : BitVec 64)
  /-- CHR_NOW_READ (R276). A read of CHR_NOW returns whole nanoseconds and latches the fraction of the same tick into CHR_FRAC. -/
  | chrNowRead (a : Agent)
  /-- RING_ENABLE (R282). A write of EN = 1 to FE_RING_CFG_r resets the ring pointers and makes the ring ACTIVE. -/
  | ringEnable (a : Agent) (fn : FuncId) (r : Fin 8) (v : BitVec 32)
  /-- RING_DISABLE (R282). A write of EN = 0 stops fetching, completes unstarted descriptors with GS_0B07 and drains the ring to IDLE. -/
  | ringDisable (a : Agent) (fn : FuncId) (r : Fin 8) (v : BitVec 32)
  /-- SUBMISSION_DOORBELL (R283). A host writes a submission tail doorbell, announcing descriptors to fetch, or the write is discarded with DBERR. -/
  | submissionDoorbell (fn : FuncId) (r : Fin 8) (size : Fin 4) (v : Word64)
  /-- COMPLETION_DOORBELL (R284). A host writes a completion head doorbell, freeing record slots and letting held records be written. -/
  | completionDoorbell (fn : FuncId) (r : Fin 8) (size : Fin 4) (v : Word64)
  /-- QUEUE_DOORBELL (R300). A host writes a device-queue tail doorbell, posting entries to the queue. -/
  | queueDoorbell (fn : FuncId) (q : BitVec 8) (size : Fin 4) (v : Word64)
  /-- DESCRIPTOR_FETCH (R285). A descriptor's 64 bytes arrive from host memory and are checked, or the fetch fails and the ring stops. -/
  | descriptorFetch (fn : FuncId) (r : Fin 8) (res : HostRead)
  /-- KERNEL_DISPATCH (R290). A fetched descriptor whose fence, cores, order and launch condition are met starts its kernel on every named core. -/
  | kernelDispatch (d : DescSrc)
  /-- DESCRIPTOR_COMPLETE (R291). A kernel or MARKER completes, and the front end writes its completion record and raises the ring's MSI-X vector. -/
  | descriptorComplete (id : BitVec 64)
  /-- CHAIN_READ (R294). The read of a successor's chain table entry is granted, and the entry is checked and started as a descriptor of the ring. -/
  | chainRead (fn : FuncId) (r : Fin 8)
  /-- BASK (R299). The instruction BASK takes an entry from a device queue or sleeps until one is posted or the timeout passes. -/
  | bask (k : CoreId) (f : IBits)
  /-- QPOST (R300). The instruction QPOST writes 64 bytes to a device queue's slot and advances TAIL. -/
  | qpost (k : CoreId) (f : IBits)
  /-- BASK_DELIVERY (R299). An entry is assigned to a waiting BASK, written to its destination and reported in RD. -/
  | baskDelivery (fn : FuncId) (q : BitVec 8)
  /-- BASK_TIMEOUT (R299). A waiting BASK passes its deadline before an entry is assigned, so RD receives TIMEOUT. -/
  | baskTimeout (k : CoreId) (c : CtxId)
  /-- QUEUE_DISABLE (R296). A write of EN = 0 to FE_Q_CFG_q ends every waiting BASK with TIMEOUT and loses entries not taken. -/
  | queueDisable (a : Agent) (fn : FuncId) (q : BitVec 8) (v : BitVec 32)
  /-- QUEUE_ENABLE (R296). A write of EN = 1 to FE_Q_CFG_q enables the queue and sets HEAD and TAIL to 0. -/
  | queueEnable (a : Agent) (fn : FuncId) (q : BitVec 8) (v : BitVec 32)
  /-- LATE_MESSAGE (R303). A stamped item arrives with an old EPOCH and is dropped, counted and logged. -/
  | lateMessage (m : Stamped)
  /-- QUARANTINE (R307). A fault quarantines a partition: rings stop, units stop, fault records are written, the partition is reset and notices are posted. -/
  | quarantine (p : PartId)
  /-- DEVICE_ESCALATION (R310). The security core logs the case, writes DEVICE_RESET records and the crash dump, and performs warm reset. -/
  | deviceEscalation (esc : Fin 6)
  /-- LINK_PHASE_TIMEOUT (R321). A training phase exceeds its time limit, so the attempt fails with a reason code. -/
  | linkPhaseTimeout (l : LinkId) (ph : Fin 5)
  /-- HELLO_RECEIVED (R321). A partner's training pattern or hello arrives, so the link advances through training or enters MISMATCH. -/
  | helloReceived (l : LinkId) (m : Hello)
  /-- TRAINING_COMPLETE (R321). A link passes VERIFY and comes UP, possibly on one lane. -/
  | trainingComplete (l : LinkId) (lanes : BitVec 2)
  /-- PARTNER_ABSENT (R322). The silence timer reaches 100 ms, so the link enters PARTNER_ABSENT. -/
  | partnerAbsent (l : LinkId)
  /-- TRAINING_RETRY (R323). The wait after a failed attempt ends, so the link enters DETECT again or enters FAILED at MAXTRY. -/
  | trainingRetry (l : LinkId)
  /-- FLIT_RECEIVE (R324). A flit arrives, is acknowledged in sequence or causes a negative acknowledgement. -/
  | flitReceive (l : LinkId) (m : Flit)
  /-- FLIT_NAK (R324). A negative acknowledgement arrives, so the sender replays from the first unacknowledged flit. -/
  | flitNak (l : LinkId) (seq : BitVec 16)
  /-- LINK_DOWN (R325). A link loses signal, clock recovery or flits, or replays one flit eight times, and enters RETRAIN with its flits resent. -/
  | linkDown (l : LinkId) (cause : DownCause)
  /-- LANE_DROP (R326). A lane becomes faulty, so the detecting end sends a lane-drop ordered set and the link resumes on the kept lane. -/
  | laneDrop (l : LinkId) (lane : Fin 2)
  /-- LANE_DROP_RECEIVED (R326). A lane-drop ordered set arrives, and the partner replies and applies the intersection of kept lanes. -/
  | laneDropReceived (l : LinkId) (kept : BitVec 2)
  /-- ENABLE (R335). A write of OP ENABLE to LNK_CTL_l starts training from DETECT. -/
  | enable (a : Agent) (l : LinkId)
  /-- DISABLE (R335). A write of OP DISABLE to LNK_CTL_l stops the link at once. -/
  | disable (a : Agent) (l : LinkId)
  /-- RESTART (R335). A write of OP RESTART to LNK_CTL_l enters DETECT from any state except DISABLED. -/
  | restart (a : Agent) (l : LinkId)
  /-- SLEEP (R327). A write of OP SLEEP drains the link, sends a sleep ordered set and turns off its transmitters, or is refused. -/
  | sleep (a : Agent) (l : LinkId) (quiet : Bool)
  /-- WAKE (R329). A write of OP WAKE sends the wake pattern and resumes the link through ALIGN and VERIFY. -/
  | wake (a : Agent) (l : LinkId)
  /-- SLEEP_ORDERED_SET (R327). A sleep ordered set arrives, and the partner sleeps its own end. -/
  | sleepOrderedSet (l : LinkId)
  /-- WAKE_DETECT (R329). A sleeping or absent-partner link detects the wake pattern or activity and resumes or enters DETECT. -/
  | wakeDetect (l : LinkId)
  /-- PACKET_ROUTE (R316). A packet is routed to the inbound path, an override port or a dimension-order port, waking a sleeping port if needed. -/
  | packetRoute (m : NetPkt)
  /-- TRANSIT_FORWARD (R318). A packet passing through a chip is forwarded on the I/O die from its receiving port to its sending port. -/
  | transitForward (p : Fin 4) (m : NetPkt)
  /-- PORT_HOLD_EXPIRY (R319). A packet waits LNK_PORT_p.HOLD without an UP link and is dropped with a GS_0C04 response. -/
  | portHoldExpiry (p : Fin 4)
  /-- COMPAT_WRITE (R332). A write from an older-generation partner is mapped through a compatibility window and issued as a PUT, or dropped. -/
  | compatWrite (p : Fin 4) (addr : BitVec 48) (data : List Byte)
  /-- COMPAT_GROUP_END (R332). A BML-2 last marker or BML-1 fence makes the port issue a PUTF of 0 B and advance the window's GGEN. -/
  | compatGroupEnd (p : Fin 4) (w : Fin 8)
  /-- LF_CH_DB (R344). A write to LF_CH_DB_c announces Leapfrog descriptors, or is discarded with DBERR. -/
  | lfChDb (a : Agent) (ch : ChanId) (v : BitVec 32)
  /-- LF_DESCRIPTOR_START (R345). A Leapfrog descriptor at the head of its channel is checked and starts once its start counter reaches THRESH. -/
  | lfDescriptorStart (ch : ChanId)
  /-- LF_START_POLL (R345). Every 1 µs the engine reads a waiting descriptor's START counter at its home. -/
  | lfStartPoll (ch : ChanId)
  /-- LF_COMPLETE (R345). A Leapfrog descriptor completes, writes its result word, counts its DONE counter and advances HEAD. -/
  | lfComplete (ch : ChanId)
  /-- LF_WINDOW_OPEN (R353). A receive half opens a window toward its send half, requesting credit for a scratchpad destination. -/
  | lfWindowOpen (ch : ChanId)
  /-- LF_WINDOW_CLOSE (R353). The last byte of a window is performed, so it closes and its grant is returned. -/
  | lfWindowClose (ch : ChanId)
  /-- LF_WINDOW_TIMEOUT (R355). A half waits LF_CFG.WTMO for a window or data and completes with GS_0D08. -/
  | lfWindowTimeout (ch : ChanId)
  /-- LF_MESSAGE (R362). An engine message arrives and is applied, or dropped when its EPOCH or OPSEQ names no active half. -/
  | lfMessage (m : LfMsg)
  /-- LF_HEARTBEAT (R364). Every 100 µs the engine sends a heartbeat to its NEXT and PREV members. -/
  | lfHeartbeat (g : GroupId)
  /-- LF_HEARTBEAT_LOSS (R364). No heartbeat arrives from a neighbour for 1 ms, so the group is declared failed. -/
  | lfHeartbeatLoss (g : GroupId) (next : Bool)
  /-- REFORM_NOTICE (R366). A re-form notice reaches a member, which forwards it, marks the group REFORMING and writes the background entry. -/
  | reformNotice (g : GroupId) (m : Reform)
  /-- REFORM_SWAP (R366). At instant I every member swaps the group entry at one TCLK edge and the group becomes READY. -/
  | reformSwap (g : GroupId)
  /-- RESUME (R373). A write of RESUME to LF_CH_CTL_c makes a STOPPED channel ACTIVE. -/
  | resume (a : Agent) (ch : ChanId)
  /-- LF_CHANNEL_ENABLE (R373). A write of EN = 1 to LF_CH_CFG_c enables the channel and sets HEAD and TAIL to 0. -/
  | lfChannelEnable (a : Agent) (ch : ChanId) (v : BitVec 32)
  /-- LF_CHANNEL_DISABLE (R373). A write of EN = 0 to LF_CH_CFG_c completes every unstarted descriptor with GS_0B07. -/
  | lfChannelDisable (a : Agent) (ch : ChanId) (v : BitVec 32)
  /-- LF_BARRIER_SET (R372). The Grenug command LF_BARRIER_SET sets the barrier part of a group on the N640 at once. -/
  | lfBarrierSet (cmd : Cmd)
  /-- HBM_READ (R384). An HBM controller performs a read and resolves each block by offline state, poison, address mismatch and error. -/
  | hbmRead (addr : Addr) (len : BitVec 8) (errs : List (Fin 4 × Upset))
  /-- HBM_WRITE (R383). An HBM controller performs a whole-block write or a read-modify-write, or discards it with GS_0E04. -/
  | hbmWrite (addr : Addr) (data : List TByte)
  /-- HBM_CORRECTED_WRITEBACK (R384). A controller writes a corrected block back within 10 µs in an idle slot. -/
  | hbmCorrectedWriteback (block : BitVec 42)
  /-- FILL (R386). The Grenug command FILL is checked and starts writing whole HBM blocks with a pattern or poison. -/
  | fill (cmd : Cmd)
  /-- FILL_COMPLETE (R386). Every block of a FILL has been performed, so the command completes. -/
  | fillComplete (fn : FuncId)
  /-- BUCKET_LEAK (R388). At the end of each LEAK interval with LEVEL above 0, the bucket's LEVEL falls by 1. -/
  | bucketLeak (bk : Bucket)
  /-- BUCKET_OVERFLOW_INTERRUPT (R388). Firmware takes a bucket overflow interrupt, logs it and posts an error notice. -/
  | bucketOverflowInterrupt (bk : Bucket)
  /-- SCRUB_READ (R390). A scrubber reads its next block at its even rate and writes back, poisons or skips it by outcome. -/
  | scrubRead (pc : BitVec 9) (u : Upset)
  /-- PPR_REPAIR (R392). The security core repairs an HBM candidate row by holding, reading, remapping and rewriting its granule. -/
  | pprRepair (st : StackId)
  /-- STACK_OFFLINE (R393). A stack whose checker failed or whose PHY does not retrain within 10 ms is taken offline. -/
  | stackOffline (st : StackId) (selfTest : Bool)
  /-- BAR_HOST_READ (R402). A host read through BAR2 or BAR4 is translated for the partition and completes, or completes with UR or CA. -/
  | barHostRead (fn : FuncId) (bar : Bar) (off : BitVec 48) (len : BitVec 12)
  /-- BAR_HOST_WRITE (R402). A host write through BAR2 or BAR4 is translated and performed at its home, or discarded with a record in MMU_FAULT_p. -/
  | barHostWrite (fn : FuncId) (bar : Bar) (off : BitVec 48) (data : List Byte)
  /-- PARTITION_CREATE (R409). The Grenug command PARTITION_CREATE checks and places a partition's resources and binds its function. -/
  | partitionCreate (cmd : Cmd)
  /-- PARTITION_DESTROY (R410). The Grenug command PARTITION_DESTROY resets a partition, removes its translations and frees its resources. -/
  | partitionDestroy (cmd : Cmd)
  /-- INVAL (R416). The Grenug command INVAL is checked and accepted with a fence 10 µs later. -/
  | inval (cmd : Cmd)
  /-- INVAL_FENCE (R417). At the fence edge every TLB removes the partition's overlapping entries and ROOT may take NEWROOT. -/
  | invalFence (p : PartId)
  /-- INVAL_COMPLETE (R417). Every range translated before the fence reaches its completion point, so INVAL completes. -/
  | invalComplete (p : PartId)
  /-- PAGE_WALK (R414). A page-table entry read completes, and the walk checks it and inserts the result or fails. -/
  | pageWalk (u : TlbUser) (p : PartId) (va : Addr) (wr : Bool)
  /-- SLICE_END (R419). The running context's slice ends, so the scheduler switches at the next yield point. -/
  | sliceEnd (k : CoreId)
  /-- CONTEXT_SWITCH (R420). At a yield point with queues empty, the core switches resident context in 32 CCLK. -/
  | contextSwitch (k : CoreId) (c : CtxId)
  /-- SLICE_OVERRUN (R420). The running context passes its slice end by YIELD_MAX without a yield point and faults with GS_0F0C. -/
  | sliceOverrun (k : CoreId)
  /-- MBX_POST (R439). A host 8-byte write to MBX_POST queues a message notice, or is dropped with OVERRUN or BADPOST. -/
  | mbxPost (fn : FuncId) (size : Fin 4) (v : Word64)
  /-- MBX_TAKE (R440). The scheduler core takes a notice, reads the message, checks it and accepts or rejects it with an acknowledge entry. -/
  | mbxTake (fn : FuncId)
  /-- MBX_ACK_READ (R453). A read of MBX_ACK returns and removes the oldest acknowledge entry. -/
  | mbxAckRead (fn : FuncId)
  /-- MBX_NR_HEAD_WRITE (R444). A host write of MBX_NR_HEAD frees notice slots and lets held notices be written, or sets HEADERR. -/
  | mbxNrHeadWrite (fn : FuncId) (v : BitVec 32)
  /-- NOP_COMMAND (R438). The Grenug command NOP completes with GS_0000 at acceptance. -/
  | nopCommand (cmd : Cmd)
  /-- LOG_READ (R450). The Grenug command LOG_READ copies log records from FIRST upward to host memory. -/
  | logRead (cmd : HostCmd)
  /-- TRACE_SET (R450). The Grenug command TRACE_SET enables or disables a range of trace points. -/
  | traceSet (cmd : Cmd)
  /-- DUMP_READ (R450). The Grenug command DUMP_READ copies part of the crash dump to host memory. -/
  | dumpRead (cmd : HostCmd)
  /-- DUMP_CLEAR (R452). The Grenug command DUMP_CLEAR sets the crash dump KIND to 0. -/
  | dumpClear (cmd : Cmd)
  /-- INTERNAL_MAILBOX_POST (R436). A firmware processor posts to another's internal mailbox, or receives GS_1006 when it is full. -/
  | internalMailboxPost (src : ProcId) (dst : ProcId) (msg : List Byte)
  /-- REGION_FAULT (R432). A firmware access meets no permitted region, so the supervisor stops, logs and restarts the component. -/
  | regionFault (x : FwPart) (write : Bool) (addr : Addr)
  /-- WATCHDOG_EXPIRY (R433). A processor's watchdog expires, so the security core resets and reloads that processor and writes a PROC dump. -/
  | watchdogExpiry (i : ProcId)
  /-- FW_KICK (R454). A write to FW_KICK_i restarts processor i's watchdog. -/
  | fwKick (a : Agent) (i : ProcId)
  /-- PROCESSOR_RESTART_TIMEOUT (R433). A restarting processor does not reach RUN within 20 ms, so it reports ABSENT or the chip escalates. -/
  | processorRestartTimeout (i : ProcId)
  /-- SPDM_REQUEST (R446). An SPDM request through the PF's DOE capability is answered by the security core. -/
  | spdmRequest (req : List Byte)
  /-- GATED_ENTRY (R457). A position whose engines have been idle for 64 CCLK enters GATED. -/
  | gatedEntry (p : PhysId)
  /-- GATED_EXIT (R457). An issue, dispatch, flag decision or bank access returns a GATED position to ACTIVE. -/
  | gatedExit (p : PhysId)
  /-- RETAIN_ACCESS_WAKE (R458). An access reaching a RETAIN position or SELF_REFRESH stack is held and starts its exit. -/
  | retainAccessWake (d : Domain)
  /-- PWR_ASLEEP_REFUSAL (R459). An access reaching an OFF position or one without ACCESS armed is refused with GS_1105. -/
  | pwrAsleepRefusal (d : Domain) (m : Packet)
  /-- PWR_SLEEP_REQ (R460). A write to PWR_SLEEP_REQ starts a sleep or wake request over a range of domains, or is discarded. -/
  | pwrSleepReq (a : Agent) (v : Word64)
  /-- SLEEP_MEMBER_CHECK (R461). Every 10 ns the power controller checks the next member of a sleep request and starts its entry or refuses it. -/
  | sleepMemberCheck (inp : SleepInputs)
  /-- SLEEP_ENTRY_END (R461). A domain's entry into RETAIN, OFF or SELF_REFRESH ends. -/
  | sleepEntryEnd (d : Domain)
  /-- SLEEP_EXIT_END (R458). A domain's exit to ACTIVE ends, and held accesses are presented. -/
  | sleepExitEnd (d : Domain)
  /-- DOMAIN_WAKE (R463). An armed wake source fires for a sleeping domain and starts its exit. -/
  | domainWake (d : Domain) (src : Fin 4)
  /-- CCLK_CHANGE (R465). The power core changes a die's CCLK by raising the rail, ramping LMAX down, relocking and ramping LMAX up. -/
  | cclkChange (d : DieId) (mhz : BitVec 16)
  /-- CURRENT_LOOP (R468). Every 1 µs the power core compares rail current with ICC_MAX and lowers or raises LMAX. -/
  | currentLoop (d : DieId) (amps : BitVec 16)
  /-- TEMPERATURE_LOOP (R468). Every 10 µs the power core compares junction temperatures with TJ_TARGET and TJ_MAX and steps CCLK. -/
  | temperatureLoop (d : DieId) (tj : BitVec 8)
  /-- HBM_TEMPERATURE_LOOP (R468). Every 1 ms the power core throttles or restores a stack's request slots by its temperature. -/
  | hbmTemperatureLoop (st : StackId) (t : BitVec 8)
  /-- POWER_LOOP (R469). Every 100 µs the power core compares average package power with P_eff and steps CCLK. -/
  | powerLoop (watts : BitVec 16)
  /-- PWR_TIN_WRITE (R466). A write of PWR_TIN sets the coolant inlet temperature and restarts the staleness timer, or is rejected out of range. -/
  | pwrTinWrite (a : Agent) (v : BitVec 32)
  /-- BRING_UP (R480). After reset is released, the boot steps lock PLLs, start firmware, self-test, train HBM, bind cores, fill HBM and commit settings. -/
  | bringUp (inp : BootInputs)
  /-- WARM_RESET (R481). A warm reset reruns the bring-up steps that keep Chorus, HBM, the dump and the buckets. -/
  | warmReset (inp : BootInputs)
  /-- SHED_BEGIN (R488). The Grenug command SHED_BEGIN downloads a firmware image into the inactive slot. -/
  | shedBegin (cmd : Cmd)
  /-- SHED_DOWNLOAD_COMPLETE (R488). The image is programmed and the slot record marks it STAGED. -/
  | shedDownloadComplete (res : HostRead) (flashOk : Bool)
  /-- SHED_VERIFY (R489). The Grenug command SHED_VERIFY checks the staged image's signature, SVN and settings format. -/
  | shedVerify (cmd : Cmd) (chk : ImageCheck)
  /-- SHED_ACTIVATE (R490). The Grenug command SHED_ACTIVATE swaps every processor to the new image and starts the confirmation timer. -/
  | shedActivate (cmd : Cmd) (swap : SwapOutcome)
  /-- SHED_CONFIRM (R492). The Grenug command SHED_CONFIRM marks the new slot GOOD and raises the anti-rollback counter. -/
  | shedConfirm (cmd : Cmd)
  /-- SHED_ABORT (R492). The Grenug command SHED_ABORT reverts a trial or empties a staged or verified slot. -/
  | shedAbort (cmd : Cmd)
  /-- RETIRE_POSITION (R496). A warden tests the spare, waits for a quiet point, holds the window, copies state and rebinds the slot. -/
  | retirePosition (p : PhysId) (testOk : Bool)
  /-- SLOT_UNBIND (R497). With no spare, the warden unbinds the slot after WAIT_MS, quarantining partitions still busy on it. -/
  | slotUnbind (p : PhysId)
  /-- SCRATCHPAD_ROW_REPAIR (R500). A warden maps a candidate bank row to a spare row and rewrites its words. -/
  | scratchpadRowRepair (p : PhysId)
  /-- SYNC_EDGE (R521). A filtered CHORUS_SYNC edge is timestamped and accepted or rejected for ROOT_SYNC discipline. -/
  | syncEdge (inst : Chorus)
  /-- REG_READ (R523). The sideband command REG_READ reads a permitted register. -/
  | regRead (addr : Addr)
  /-- REG_WRITE (R523). The sideband command REG_WRITE writes a permitted register. -/
  | regWrite (addr : Addr) (v : Word64)
  /-- FLASH_READ (R523). The sideband command FLASH_READ reads flash bytes in PHASE RECOVERY. -/
  | flashRead (place : FlashAt) (len : BitVec 8)
  /-- FLASH_ERASE (R523). The sideband command FLASH_ERASE erases a 64 KiB flash sector in PHASE RECOVERY. -/
  | flashErase (place : FlashAt)
  /-- FLASH_PROGRAM (R523). The sideband command FLASH_PROGRAM programs bytes within one flash page in PHASE RECOVERY. -/
  | flashProgram (place : FlashAt) (data : List Byte)
  /-- ARRIVAL_MESSAGE (R273). A barrier arrival message from another member reaches the barrier root, which sets COMPLETED and sends the completion notice once every member has arrived. -/
  | arrivalMessage (g : GroupId) (member : BitVec 14) (step : BitVec 32)
  /-- LOSS_OF_SIGNAL (R321). The partner's signal is lost in a training phase from HELLO to VERIFY, so the attempt ends with reason 0x01 and the silence timer restarts. -/
  | lossOfSignal (l : LinkId)
  /-- PROCESSOR_REACHES_RUN (R433). A restarted firmware processor reaches RUN, so it completes its journalled commands with GS_1009 and firmware posts FW_RESTART notices. -/
  | processorReachesRun (i : ProcId)
  /-- VF_ENABLE (R400). Host software sets NumVFs and enables virtual functions through the SR-IOV capability, bringing functions 1–63 into existence. -/
  | vfEnable (num : BitVec 6)
  /-- THERMAL_TRIP (R471). A sensor reaches 115 °C or a stack 105 °C, so CCLK stops, stacks self-refresh and THERMTRIP_N asserts. -/
  | thermalTrip (sensor : BitVec 9)
  /-- LNKCLK_LOST (R517). A link reference clock has no edge for 1 µs, so the links of that bank go down. -/
  | lnkclkLost (bank : Fin 2)
  /-- AVS_RETRY (R512). An AVSBus regulator fails to respond, so the setpoint is retried and AVS_ERR set after four failures. -/
  | avsRetry (d : DieId)
  /-- RAIL_OUT_OF_RANGE (R513). A core rail reads outside its setpoint ± 50 mV for 10 µs, so the die is limited and RAIL0 or RAIL1 set. -/
  | railOutOfRange (d : DieId)
  /-- JTAG_INSTRUCTION (R525). An instruction loaded into the TAP selects BYPASS, IDCODE, boundary scan or AC test. -/
  | jtagInstruction (i : Option Tap)
  /-- PLL_LOCK_LOSS (R309). An FCLK or MCLK PLL of a die loses lock for more than 1 µs, which starts whole-device escalation case 5. -/
  | pllLockLoss (die : Fin 3) (mclk : Bool)
  /-- LNK_REFCLK_RETURN (R517). A lost link reference clock returns, and the links of that bank retrain under R323. -/
  | lnkRefclkReturn (bank : Fin 2)
  /-- RAIL_NORMAL_CONTROL (R513). A core rail reading stays within ± 10 mV of its setpoint for 1 ms, so the power core restores normal control of the die. -/
  | railNormalControl (d : DieId)
  /-- BEACON_LOSS (R264). 16 µs pass with no valid beacon, so the discipline enters HOLDOVER. -/
  | beaconLoss
  /-- HOLDOVER_EXPIRY (R264). One second in HOLDOVER passes, so the discipline enters LOST. -/
  | holdoverExpiry
  /-- COMMIT_APPLY (R271). Master Chorus reaches an accepted commit's target, so every named live register changes at one TCLK edge. -/
  | commitApply
  /-- TIN_STALE (R466). PWR_TIN is not written for STALE, so T_in is taken as TIN_MAX and PWR_STAT.STALE is set. -/
  | tinStale
  /-- SHED_CONFIRM_TIMEOUT (R492). The confirmation timer expires in TRIAL, so the device reverts to the previous image. -/
  | shedConfirmTimeout
  /-- POWER_ON_RESET (R519). VDD_AUX out of range or PWRGD low resets the whole chip. -/
  | powerOnReset
  /-- COLD_RESET (R519). RESET_N low for 1 µs performs a reset identical to power-on reset. -/
  | coldReset
  /-- PCIE_RESET (R519). PE_PERST_N, hot reset or link down resets the PCIe functions and runs the warm path. -/
  | pcieReset
  /-- SYSCLK_LOST (R518). SYS_REFCLK is lost, so the PLLs hold frequency, Chorus enters LOST and SMB_ALERT_N asserts. -/
  | sysclkLost
  /-- PECLK_LOST (R517). PE_REFCLK has no edge for 1 µs, so the PCIe link goes down. -/
  | peclkLost
  /-- SYNC_TIMEOUT (R521). No valid sync edge arrives for 3 s, so a LOCKED root enters HOLDOVER. -/
  | syncTimeout
  /-- PWR_COMMIT (R523). The sideband command PWR_COMMIT has the power core issue COMMIT_AT for the PWR scope 1 ms ahead. -/
  | pwrCommit
  /-- SIDEBAND_RESULT_READ (R522). A Block Read of code 0x11 returns the result of the last sideband command. -/
  | sidebandResultRead
  /-- SMBUS_CLOCK_TIMEOUT (R517). SMB_SCL stays low for 25 ms, so the partial transaction is discarded. -/
  | smbusClockTimeout
  /-- REG_ERR_CAPTURE (R535). The scheduler core reads a TOP_REG_ERR capture within 100 µs and writes it to the log ring. -/
  | regErrCapture
  deriving DecidableEq, Repr

end Sys2Proof
end

