-- ==== Sys2Proof/Decode.lean ====
section
/-!
DEFINITION. The decoder of table words. The table of operations and events gives no row any bits: its rows are commands
and not words, so no word spells one.
-/

namespace Sys2Proof

/-- The command that a table word spells: none, because no row of the table has bits. -/
def decodeTableWord (_nbits _w : Nat) : Option Instr := none

end Sys2Proof
end

