-- ==== Sys2Proof/Config.lean ====
section
/-!
DEFINITION. What an implementation fixes and the manual does not: constants without a body, so that no proof can see
what they are and a claim about them holds whatever they are. Each is named in a row of the assumption log.
-/

namespace Sys2Proof.Config

/-- Where within R120's bound EXP2's result lies, from the format code and the operand's pattern. -/
opaque exp2 : Nat → Nat → Nat

/-- Where within R120's bound LOG2's result lies. -/
opaque log2 : Nat → Nat → Nat

/-- Where within R120's bound RCP's result lies. -/
opaque rcp : Nat → Nat → Nat

/-- Where within R120's bound RSQRT's result lies. -/
opaque rsqrt : Nat → Nat → Nat

/-- Protection region of a firmware processor (R431), by processor, region and free counter: a number of its base, of its size
and of its permissions. -/
opaque fwRegion : Nat → Nat → Nat → Nat × Nat × Nat

/-- Nanoseconds by which a request stays in its HBM controller's queue beyond the least that R379 gives; free counter. -/
opaque hbmQueueNs : Nat → Nat

/-- Nanoseconds that a core rail takes to come within 5 mV of a raised setpoint (R465); free counter. -/
opaque railSettleNs : Nat → Nat

/-- CCLK that the vector engine spends on an instruction, bank conflicts included (R128, R146, R150); free counter. -/
opaque veCclk : Nat → Nat

/-- Whether a read of an HBM block that no write has covered since power-on returns data with no status (R385); block
and free counter. -/
opaque hbmUnwrittenReads : Nat → Nat → Bool

/-- The bytes such a read returns (R385). -/
opaque hbmUnwrittenByte : Nat → Nat → Byte

/-- The words such a read marks poisoned (R385). -/
opaque hbmUnwrittenPoison : Nat → Nat → Bool

/-- Whether a DGET with NC = 0 takes a line from the read buffer that an earlier one filled (R214); line and free counter. -/
opaque lineServed : Nat → Nat → Bool

/-- Where between the smallest and the largest of the last offsets the discipline's filter puts its result (R263). -/
opaque chrFilter : Nat → Nat

/-- By how much the discipline changes the frequency trim, in 2^-32 of nominal, before its limit (R257, R263). -/
opaque chrTrim : Nat → Nat

/-- What a decoder makes of an error beyond what its code is stated to detect (R103, R183, R382), by the free counter:
0 no error, 1 a correction, 2 uncorrectable, else another address. -/
opaque beyondBound : Nat → Nat

/-- Whether an access to another index that the code need not detect is missed (R183, R382), by the free counter. -/
opaque indexMissed : Nat → Bool

/-- What a byte holds whose decoder has missed or miscorrected an error (R183, R382), or which a partial write of HBM took
from a poisoned word (R383), by its address and the free counter. -/
opaque upsetByte : Nat → Nat → Byte

/-- The data that lies under a scratchpad word beyond the correction bound, which no agent sees. -/
opaque freeWord : Nat → Word64

/-- The bytes of the crash dump after its header, by the Chorus of the dump and the offset (R451). -/
opaque dumpByte : Nat → Nat → Byte

/-- The bytes of a DEVICE dump beside its header, processor sections and log copy (R451), by the free counter. -/
opaque dumpExtra : Nat → Nat

/-- Whether a DEVICE dump stops at its time limit (R452), by the free counter. -/
opaque dumpTruncated : Nat → Bool

/-- The status of a command argument out of range where its chapter names none (R372), by the free counter. -/
opaque argStatus : Nat → Status

/-- The STATUS with which a COMMIT_AT that COMMIT_CANCEL ended completes (R272 names none), by the free counter. -/
opaque cancelledStatus : Nat → Status

/-- The status in TOP_BOOT_STAT.REASON of a boot that ends in RECOVERY for a cause with no status of its own (R480), by the
free counter. -/
opaque bootStatus : Nat → Status

/-- What a byte of the flash that the machine has not written reads as (R477), by the free counter and its offset. -/
opaque flashByte : Nat → Nat → Byte

/-- The status of a sideband PWR_COMMIT while the power core or the scheduler core does not run (R523), by the free counter. -/
opaque sbStatus : Nat → Status

/-- Fused at manufacture: the rail voltage in mV of a compute die at a CCLK in MHz (R465). -/
opaque railMv : Nat → Nat → Nat

/-- Fused at manufacture: how many spare positions a part shipped with beyond the 8 of R4. -/
opaque shipSpares : Nat

/-- Fused at manufacture: PWR_CHAR.IARR (R474). -/
opaque iarr : BitVec 16

/-- Fused at manufacture: PWR_CHAR.ISW (R474). -/
opaque isw : BitVec 16

/-- CCLK in a span of elapsed ns in which nothing occupied the matrix array of a core (R84), by the free counter. -/
opaque idleCclk : Nat → Nat → Nat

/-- Whether two discarded register writes of one nanosecond fell into one FCLK (R535), by the free counter. -/
opaque sameFclk : Nat → Bool

/-- Whether a VRED FLAGS sees the indications of a VCVT that started shortly before it (R145), by the free counter and
the VCVT's place among those. -/
opaque flagsSeen : Nat → Nat → Bool

/-- CCLK for which a sequencer's clock was gated in a wait that ended (R168, R247), by the free counter. -/
opaque gatedCclk : Nat → Nat

/-- CCLK for which a sequencer's clock has been gated so far in a wait (R247), by elapsed ns and the free counter. -/
opaque gatedSoFar : Nat → Nat → Nat

end Sys2Proof.Config
end

