-- ==== Sys2Proof/Machine/Bits.lean ====
section
/-!
DEFINITION. Bit fields, sign extension and byte order: the helpers every other file reads words with.
-/

namespace Sys2Proof.Machine

/-- The field [hi:lo] of a natural number read as a word (R11). -/
def natBits (x hi lo : Nat) : Nat := (x >>> lo) % 2 ^ (hi + 1 - lo)

/-- The field [hi:lo] of a word. -/
def bits {n : Nat} (w : BitVec n) (hi lo : Nat) : Nat := natBits w.toNat hi lo

/-- Bit `i` of a word. -/
def bit {n : Nat} (w : BitVec n) (i : Nat) : Bool := w.getLsbD i

/-- The mask of field [hi:lo]. -/
def fieldMask (hi lo : Nat) : Nat := (2 ^ (hi + 1 - lo) - 1) <<< lo

/-- A word with field [hi:lo] holding `x`; bits of `x` beyond the field are dropped. -/
def setBits {n : Nat} (w : BitVec n) (hi lo x : Nat) : BitVec n :=
  (w &&& ~~~ (BitVec.ofNat n (fieldMask hi lo))) |||
    BitVec.ofNat n ((x % 2 ^ (hi + 1 - lo)) <<< lo)

/-- A word with bit `i` holding `b`. -/
def setBit {n : Nat} (w : BitVec n) (i : Nat) (b : Bool) : BitVec n := setBits w i i b.toNat

/-- An `n`-bit number read as two's complement. -/
def signed (n x : Nat) : Int := if x < 2 ^ (n - 1) then (x : Int) else (x : Int) - (2 ^ n : Nat)

/-- An integer wrapped to `n` bits. -/
def wrap (n : Nat) (x : Int) : Nat := (x % ((2 ^ n : Nat) : Int)).toNat

/-- The value a little-endian list of bytes spells (R12). -/
def leNat : List Byte → Nat
  | [] => 0
  | b :: bs => b.toNat + 256 * leNat bs

/-- The `n` bytes of a value, little end first (R12). -/
def leBytes : Nat → Nat → List Byte
  | 0, _ => []
  | n + 1, x => BitVec.ofNat 8 x :: leBytes n (x / 256)

/-- Bytes [o, o+n) of a list, zero where the list has ended. -/
def slice (bs : List Byte) (o n : Nat) : List Byte :=
  let t := (bs.drop o).take n
  t ++ List.replicate (n - t.length) 0#8

/-- The `n`-byte little-endian field at offset `o` of a record. -/
def leAt (bs : List Byte) (o n : Nat) : Nat := leNat (slice bs o n)

/-- Saturating addition below `2 ^ n`. -/
def satAdd (n x y : Nat) : Nat := min (x + y) (2 ^ n - 1)

/-- `x` rounded up to a multiple of `n`. -/
def roundUp (x n : Nat) : Nat := (x + n - 1) / n * n

/-- Whether ranges [a, a+n) and [b, b+m) share a number. -/
def overlaps (a n b m : Nat) : Bool := decide (0 < n) && decide (0 < m) && decide (a < b + m) && decide (b < a + n)

/-- The first status whose condition holds: the checks of an instruction in the order its rule gives them. -/
def firstOf {α : Type} : List (Bool × α) → Option α
  | [] => none
  | (c, a) :: r => if c then some a else firstOf r

/-- Change the first element that `p` accepts. -/
def modifyFirst {α : Type} (p : α → Bool) (f : α → α) : List α → List α
  | [] => []
  | x :: l => if p x then f x :: l else x :: modifyFirst p f l

/-- Replace the element at index `i`, if there is one. -/
def setAt {α : Type} (l : List α) (i : Nat) (x : α) : List α := l.set i x

end Sys2Proof.Machine
end

