-- ==== Sys2Proof/Machine/Float.lean ====
section
/-!
DEFINITION. Number formats (chapter 02, R41 to R58): format codes, exact values, the single rounding every unit uses,
encoding with overflow, comparison, and conversion. A finite float value is kept exactly, as a sign, a natural
significand and a power of two.
-/

namespace Sys2Proof.Machine

/-- The element formats of R41. -/
inductive Fmt where
  | fp32 | bf16 | fp16 | fp64 | e4m3 | e5m2 | e3m2 | e2m3 | e2m1 | int32 | int16 | int8 | uint8 | int4 | fp32x2
  deriving DecidableEq, Repr

/-- The format a 4-bit code names; 0xF is reserved (R41). -/
def Fmt.ofCode : Nat → Option Fmt
  | 0 => some .fp32 | 1 => some .bf16 | 2 => some .fp16 | 3 => some .fp64 | 4 => some .e4m3 | 5 => some .e5m2
  | 6 => some .e3m2 | 7 => some .e2m3 | 8 => some .e2m1 | 9 => some .int32 | 10 => some .int16 | 11 => some .int8
  | 12 => some .uint8 | 13 => some .int4 | 14 => some .fp32x2 | _ => none

/-- Element size in bits (R41). -/
def Fmt.bitsOf : Fmt → Nat
  | .fp32 => 32 | .bf16 => 16 | .fp16 => 16 | .fp64 => 64 | .e4m3 => 8 | .e5m2 => 8 | .e3m2 => 6 | .e2m3 => 6
  | .e2m1 => 4 | .int32 => 32 | .int16 => 16 | .int8 => 8 | .uint8 => 8 | .int4 => 4 | .fp32x2 => 64

/-- Whether the format is one of the integer class (R41). -/
def Fmt.isInt : Fmt → Bool
  | .int32 | .int16 | .int8 | .uint8 | .int4 => true
  | _ => false

/-- Bytes that `n` packed elements take (R47; six-bit elements four to three bytes). -/
def Fmt.bytes (f : Fmt) (n : Nat) : Nat := (n * f.bitsOf + 7) / 8

/-- The range of an integer format (R42). -/
def Fmt.intRange : Fmt → Int × Int
  | .int32 => (-2147483648, 2147483647)
  | .int16 => (-32768, 32767)
  | .int8 => (-128, 127)
  | .uint8 => (0, 255)
  | .int4 => (-8, 7)
  | _ => (0, 0)

/-- What a float format can say beside finite values (R44). -/
inductive Specials where
  | infNan   -- the top exponent is infinity and NaN
  | nanOnly  -- one NaN per sign at the top code (E4M3)
  | none     -- every pattern is finite (FP6, FP4)
  deriving DecidableEq, Repr

/-- The parameters of R43. -/
structure FloatP where
  eb   : Nat
  mb   : Nat
  bias : Nat
  spec : Specials
  deriving DecidableEq, Repr

/-- The parameters of a float format; FP32X2 is a pair of FP32 and has none of its own. -/
def Fmt.fp : Fmt → FloatP
  | .fp64 => ⟨11, 52, 1023, .infNan⟩
  | .bf16 => ⟨8, 7, 127, .infNan⟩
  | .fp16 => ⟨5, 10, 15, .infNan⟩
  | .e5m2 => ⟨5, 2, 15, .infNan⟩
  | .e4m3 => ⟨4, 3, 7, .nanOnly⟩
  | .e3m2 => ⟨3, 2, 3, .none⟩
  | .e2m3 => ⟨2, 3, 1, .none⟩
  | .e2m1 => ⟨2, 1, 1, .none⟩
  | _ => ⟨8, 23, 127, .infNan⟩

/-- An exact value: not a number, an infinity, or ±m·2^e. -/
inductive Num where
  | nan
  | inf (neg : Bool)
  | fin (neg : Bool) (m : Nat) (e : Int)
  deriving DecidableEq, Repr

/-- An exact finite value with its sign in the significand. -/
structure Dy where
  m : Int
  e : Int
  deriving DecidableEq, Repr

/-- The exact sum. -/
def Dy.add (a b : Dy) : Dy :=
  let e := min a.e b.e
  ⟨a.m * 2 ^ (a.e - e).toNat + b.m * 2 ^ (b.e - e).toNat, e⟩

/-- The exact product. -/
def Dy.mul (a b : Dy) : Dy := ⟨a.m * b.m, a.e + b.e⟩

/-- The exact value of an integer. -/
def Dy.ofInt (i : Int) : Dy := ⟨i, 0⟩

/-- The number a signed dyadic is; zero takes the sign given. -/
def Dy.toNum (d : Dy) (zeroNeg : Bool) : Num :=
  if d.m = 0 then .fin zeroNeg 0 0 else .fin (decide (d.m < 0)) d.m.natAbs d.e

/-- The signed dyadic of a finite number, zero for the others. -/
def Num.dy : Num → Dy
  | .fin neg m e => ⟨if neg then - (m : Int) else m, e⟩
  | _ => ⟨0, 0⟩

def Num.isNan : Num → Bool
  | .nan => true
  | _ => false

def Num.isInf : Num → Bool
  | .inf _ => true
  | _ => false

def Num.isFin : Num → Bool
  | .fin _ _ _ => true
  | _ => false

def Num.isZero : Num → Bool
  | .fin _ m _ => m == 0
  | _ => false

/-- The sign; a NaN has none. -/
def Num.neg : Num → Bool
  | .nan => false
  | .inf n => n
  | .fin n _ _ => n

/-- The value with its sign turned. -/
def Num.negate : Num → Num
  | .nan => .nan
  | .inf n => .inf (!n)
  | .fin n m e => .fin (!n) m e

/-- The exact product, NaN for 0 × ∞ (R45). -/
def Num.mul (a b : Num) : Num :=
  match a, b with
  | .nan, _ => .nan
  | _, .nan => .nan
  | .inf s, y => if y.isZero then .nan else .inf (s != y.neg)
  | x, .inf t => if x.isZero then .nan else .inf (x.neg != t)
  | .fin s m e, .fin t n f => .fin (s != t) (m * n) (e + f)

/-- The exact sum, NaN for ∞ − ∞; a sum of opposite equal values is +0, −0 under RDN (R50). -/
def Num.add (rdn : Bool) (a b : Num) : Num :=
  match a, b with
  | .nan, _ => .nan
  | _, .nan => .nan
  | .inf s, .inf t => if s = t then .inf s else .nan
  | .inf s, _ => .inf s
  | _, .inf t => .inf t
  | .fin s m e, .fin t n f =>
    if m = 0 ∧ n = 0 then .fin (if s = t then s else rdn) 0 0
    else (Dy.add (Num.dy (.fin s m e)) (Num.dy (.fin t n f))).toNum rdn

/-- The order of two numbers that are no NaN: -1, 0 or 1 (R50). -/
def Num.cmp (a b : Num) : Int :=
  match a, b with
  | .inf s, .inf t => if s = t then 0 else if s then -1 else 1
  | .inf s, _ => if s then -1 else 1
  | _, .inf t => if t then 1 else -1
  | x, y => (Dy.add x.dy y.negate.dy).m.sign

/-- `a < b`, false with a NaN (R50). -/
def Num.lt (a b : Num) : Bool := !a.isNan && !b.isNan && decide (Num.cmp a b < 0)

/-- `a = b`, false with a NaN (R50). -/
def Num.eq (a b : Num) : Bool := !a.isNan && !b.isNan && decide (Num.cmp a b = 0)

/-- `a ≤ b`, false with a NaN (R50). -/
def Num.le (a b : Num) : Bool := !a.isNan && !b.isNan && decide (Num.cmp a b ≤ 0)

/-- The rounding modes of R52; RSR carries the 16-bit value R of R53. -/
inductive RMode where
  | rne | rtz | rdn | rup | rna | rsr (r : Nat)
  deriving DecidableEq, Repr

/-- The mode a 3-bit field names, with the generator's value for RSR; two codes are reserved (R52). -/
def RMode.ofCode (c r : Nat) : Option RMode :=
  match c with
  | 0 => some .rne | 1 => some .rtz | 2 => some .rdn | 3 => some .rup | 4 => some .rna | 5 => some (.rsr r)
  | _ => none

/-- Number of significant bits of a natural number. -/
def bitLen (m : Nat) : Nat := if m = 0 then 0 else Nat.log2 m + 1

/-- Whether a magnitude `lo + rem/2^d` rounds away from zero (R52, R53). -/
def roundsAway (rm : RMode) (neg : Bool) (lo rem d : Nat) : Bool :=
  if rem = 0 then false
  else
    let half := 2 ^ (d - 1)
    match rm with
    | .rne => decide (rem > half) || (decide (rem = half) && decide (lo % 2 = 1))
    | .rtz => false
    | .rdn => neg
    | .rup => !neg
    | .rna => decide (rem ≥ half)
    | .rsr r => decide ((rem * 65536) / 2 ^ d + r ≥ 65536)

/-- A magnitude rounded to a grid of spacing 2^q. -/
structure Rounded where
  n  : Nat
  q  : Int
  nx : Bool
  deriving DecidableEq, Repr

/-- Round m·2^e to a multiple of 2^q. -/
def roundGrid (rm : RMode) (neg : Bool) (m : Nat) (e q : Int) : Rounded :=
  if q ≤ e then ⟨m * 2 ^ (e - q).toNat, q, false⟩
  else
    let d := (q - e).toNat
    let lo := m / 2 ^ d
    let rem := m % 2 ^ d
    ⟨if roundsAway rm neg lo rem d then lo + 1 else lo, q, decide (rem ≠ 0)⟩

/-- Round m·2^e to the precision of a float format, exponent unbounded above, subnormal spacing below (R49, R54). -/
def roundFloat (p : FloatP) (rm : RMode) (neg : Bool) (m : Nat) (e : Int) : Rounded :=
  let emin : Int := 1 - (p.bias : Int) - p.mb
  roundGrid rm neg m e (max (e + bitLen m - (p.mb + 1)) emin)

/-- Largest finite pattern without its sign (R43). -/
def FloatP.maxFinite (p : FloatP) : Nat :=
  match p.spec with
  | .infNan => (2 ^ p.eb - 1) * 2 ^ p.mb - 1
  | .nanOnly => 2 ^ (p.eb + p.mb) - 2
  | .none => 2 ^ (p.eb + p.mb) - 1

/-- The pattern of +∞, where the format has one. -/
def FloatP.infBits (p : FloatP) : Nat := (2 ^ p.eb - 1) * 2 ^ p.mb

/-- The canonical NaN (R44); +0 where the format has none (R55). -/
def FloatP.nanBits (p : FloatP) : Nat :=
  match p.spec with
  | .infNan => (2 ^ p.eb - 1) * 2 ^ p.mb + 2 ^ (p.mb - 1)
  | .nanOnly => 2 ^ (p.eb + p.mb) - 1
  | .none => 0

/-- A pattern with the sign put on. -/
def FloatP.withSign (p : FloatP) (neg : Bool) (b : Nat) : Nat :=
  if neg then b + 2 ^ (p.eb + p.mb) else b

/-- The exact value a pattern encodes (R43, R44). -/
def FloatP.decode (p : FloatP) (w : Nat) : Num :=
  let mag := w % 2 ^ (p.eb + p.mb)
  let neg := decide (w / 2 ^ (p.eb + p.mb) % 2 = 1)
  let ex := mag / 2 ^ p.mb
  let m := mag % 2 ^ p.mb
  if p.spec = .infNan ∧ ex = 2 ^ p.eb - 1 then (if m = 0 then .inf neg else .nan)
  else if p.spec = .nanOnly ∧ mag = 2 ^ (p.eb + p.mb) - 1 then .nan
  else if ex = 0 then .fin neg m (1 - (p.bias : Int) - p.mb)
  else .fin neg (2 ^ p.mb + m) ((ex : Int) - p.bias - p.mb)

/-- The unsigned pattern of a rounded magnitude, which may lie beyond the largest finite one. -/
def FloatP.magBits (p : FloatP) (r : Rounded) : Nat :=
  let emin : Int := 1 - (p.bias : Int) - p.mb
  if r.n < 2 ^ p.mb then r.n else r.n - 2 ^ p.mb + ((r.q - emin).toNat + 1) * 2 ^ p.mb

/-- What a conversion delivers: the pattern and the three indications of R56. -/
structure Conv where
  val : Nat
  nx  : Bool
  ofl : Bool
  nv  : Bool
  deriving DecidableEq, Repr

/-- The result of a finite overflow in a float format (R55). -/
def FloatP.overflow (p : FloatP) (rm : RMode) (sat neg : Bool) : Nat :=
  match p.spec with
  | .none => p.withSign neg p.maxFinite
  | .nanOnly => if sat then p.withSign neg p.maxFinite else p.nanBits
  | .infNan =>
    if sat then p.withSign neg p.maxFinite
    else match rm with
      | .rtz => p.withSign neg p.maxFinite
      | .rdn => if neg then p.withSign true p.infBits else p.maxFinite
      | .rup => if neg then p.withSign true p.maxFinite else p.infBits
      | _ => p.withSign neg p.infBits

/-- Convert an exact value to a float format (R54 to R56). -/
def FloatP.conv (p : FloatP) (rm : RMode) (sat : Bool) : Num → Conv
  | .nan => ⟨p.nanBits, false, false, decide (p.spec = .none)⟩
  | .inf neg =>
    match p.spec with
    | .infNan => ⟨p.withSign neg p.infBits, false, false, false⟩
    | .nanOnly => ⟨if sat then p.withSign neg p.maxFinite else p.nanBits, false, false, true⟩
    | .none => ⟨p.withSign neg p.maxFinite, false, false, true⟩
  | .fin neg m e =>
    let r := roundFloat p rm neg m e
    let b := p.magBits r
    if b > p.maxFinite then ⟨p.overflow rm sat neg, true, true, false⟩
    else ⟨p.withSign neg b, r.nx, false, false⟩

/-- Round to an integer. -/
def roundInt (rm : RMode) (neg : Bool) (m : Nat) (e : Int) : Int × Bool :=
  let r := roundGrid rm neg m e 0
  (if neg then - (r.n : Int) else r.n, r.nx)

/-- Convert an exact value to an integer format (R54 to R56). -/
def Fmt.convInt (f : Fmt) (rm : RMode) (x : Num) : Conv :=
  let (lo, hi) := f.intRange
  match x with
  | .nan => ⟨0, false, false, true⟩
  | .inf neg => ⟨wrap f.bitsOf (if neg then lo else hi), false, false, true⟩
  | .fin neg m e =>
    let (i, nx) := roundInt rm neg m e
    if i < lo then ⟨wrap f.bitsOf lo, true, true, false⟩
    else if i > hi then ⟨wrap f.bitsOf hi, true, true, false⟩
    else ⟨wrap f.bitsOf i, nx, false, false⟩

/-- FP32, the format of scales, accumulators and lanes. -/
def fp32P : FloatP := Fmt.fp .fp32

/-- The exact value of an FP32 pattern. -/
def f32 (w : Nat) : Num := fp32P.decode w

/-- Round an exact value to FP32 under RNE, overflow to infinity (R55). -/
def toF32 (x : Num) : Nat := (fp32P.conv .rne false x).val

/-- The value of an FP32X2 pattern, head in the low half, with the zero sign of R48. -/
def valueX2 (w : Nat) : Num :=
  let h := f32 (w % 2 ^ 32)
  let t := f32 (w / 2 ^ 32)
  match Num.add false h t with
  | .fin n m e => if m = 0 then .fin (h.isZero && h.neg && t.isZero) 0 0 else .fin n m e
  | x => x

/-- Whether a rounded FP32 magnitude lies beyond the largest finite one. -/
def f32Over (rm : RMode) : Num → Bool
  | .fin neg m e => decide (fp32P.magBits (roundFloat fp32P rm neg m e) > fp32P.maxFinite)
  | _ => false

/-- The FP32 value nearest an exact one with the exponent unbounded above. -/
def f32Grid (rm : RMode) : Num → Num
  | .fin neg m e => let r := roundFloat fp32P rm neg m e; .fin neg r.n r.q
  | x => x

/-- The pair of an exact value that FP32X2 can represent, a non-zero one: the nearest head, and a tail that is exact
(R48). -/
def exactX2 (x : Num) : Option Nat :=
  let h := f32Grid .rne x
  let t := Num.add false x h.negate
  if f32Over .rne x || h.isZero || !(Num.eq (f32 (toF32 t)) t) then none else some (toF32 h + toF32 t * 2 ^ 32)

/-- Convert an exact value to FP32X2: one that the format can represent is the result (R54), any other follows R58.
DESIGN CHOICE, log entry 86: where R58's procedure would change such a value under a directed rounding mode, R54 holds. -/
def convX2 (rm : RMode) (sat : Bool) (x : Num) : Conv :=
  match x with
  | .nan => ⟨fp32P.nanBits, false, false, false⟩
  | .inf neg => ⟨fp32P.withSign neg fp32P.infBits, false, false, false⟩
  | .fin neg m e =>
    if m = 0 then ⟨fp32P.withSign neg 0, false, false, false⟩
    else match exactX2 (.fin neg m e) with
    | some w => ⟨w, false, false, false⟩
    | none =>
      let h0 := f32Grid rm (.fin neg m e)
      let t0 := f32Grid .rne (Num.add false (.fin neg m e) h0.negate)
      let sum := Num.add false h0 t0
      let hN := f32Grid .rne sum
      if f32Over rm (.fin neg m e) || f32Over .rne sum then ⟨fp32P.overflow rm sat neg, true, true, false⟩
      else
        let tN := Num.add false sum hN.negate
        let h := toF32 (match hN with | .fin _ 0 _ => .fin neg 0 0 | y => y)
        let t := toF32 tN
        let hv := f32 h
        ⟨h + (if hv.isZero then 0 else t * 2 ^ 32), !(Num.eq sum (.fin neg m e)), false, false⟩

/-- The exact value of an element pattern of any format (R42, R43, R48). -/
def Fmt.value (f : Fmt) (w : Nat) : Num :=
  match f with
  | .fp32x2 => valueX2 w
  | .uint8 => .fin false (w % 256) 0
  | .int32 | .int16 | .int8 | .int4 => (Dy.ofInt (signed f.bitsOf (w % 2 ^ f.bitsOf))).toNum false
  | _ => f.fp.decode w

/-- Convert an exact value to any format (R54 to R58). -/
def Fmt.conv (f : Fmt) (rm : RMode) (sat : Bool) (x : Num) : Conv :=
  if f = .fp32x2 then convX2 rm sat x
  else if f.isInt then f.convInt rm x
  else f.fp.conv rm sat x

/-- An FP32X2 pattern with a non-zero finite head that meets R48. -/
def meetsX2 (w : Nat) : Bool :=
  let h := f32 (w % 2 ^ 32)
  !h.isNan && !h.isInf && !h.isZero && decide (toF32 (valueX2 w) = w % 2 ^ 32)

/-- Convert a pattern from one format to another: the conversion matrix of R57, whose '=' keeps the encoding. -/
def convert (src dst : Fmt) (rm : RMode) (sat : Bool) (w : Nat) : Conv :=
  if src = .fp32x2 ∧ dst = .fp32x2 ∧ meetsX2 w = true then ⟨w % 2 ^ 64, false, false, false⟩ else dst.conv rm sat (src.value w)

/-- The greater of two float patterns (R51). -/
def maxF (p : FloatP) (x y : Nat) : Nat :=
  let a := p.decode x
  let b := p.decode y
  if a.isNan && b.isNan then p.nanBits
  else if a.isNan then y
  else if b.isNan then x
  else if a.isZero && b.isZero then (if a.neg && b.neg then x else p.withSign false 0)
  else if Num.lt a b then y else x

/-- The lesser of two float patterns (R51). -/
def minF (p : FloatP) (x y : Nat) : Nat :=
  let a := p.decode x
  let b := p.decode y
  if a.isNan && b.isNan then p.nanBits
  else if a.isNan then y
  else if b.isNan then x
  else if a.isZero && b.isZero then (if a.neg || b.neg then p.withSign true 0 else x)
  else if Num.lt b a then y else x

/-- Element `i` of a packed run of bytes (R47): little-endian bit order, elements in rising order. -/
def packedAt (f : Fmt) (bytes : List Byte) (i : Nat) : Nat :=
  let b := i * f.bitsOf
  let o := b / 8
  (leNat (slice bytes o ((b % 8 + f.bitsOf + 7) / 8)) >>> (b % 8)) % 2 ^ f.bitsOf

/-- Pack elements into bytes (R47). -/
def packBits (w : Nat) : List Nat → Nat
  | [] => 0
  | x :: xs => x % 2 ^ w + packBits w xs * 2 ^ w

/-- The bytes of a packed run of elements (R47). -/
def packElems (f : Fmt) (xs : List Nat) : List Byte := leBytes (f.bytes xs.length) (packBits f.bitsOf xs)

end Sys2Proof.Machine
end

