-- ==== Sys2Proof/Machine/Sparse.lean ====
section
/-!
DEFINITION. Sparse maps: lists of (key, value) pairs in one canonical form, keys strictly rising and no entry equal
to what an unlisted key reads as. Every register file and every memory of the model is one of these, so that equal
contents are equal data. What an unlisted key reads as is a function given beside the map, never kept in it.
-/

namespace Sys2Proof.Machine

/-- A sparse map from natural numbers. -/
abbrev Sparse (α : Type) := List (Nat × α)

/-- What key `k` holds, where `d` says what an unlisted key holds. -/
def Sparse.get {α : Type} (d : Nat → α) : Sparse α → Nat → α
  | [], k => d k
  | (a, x) :: m, k => if k = a then x else Sparse.get d m k

/-- The map without an entry for `k`. -/
def Sparse.erase {α : Type} : Sparse α → Nat → Sparse α
  | [], _ => []
  | (a, x) :: m, k => if k = a then Sparse.erase m k else (a, x) :: Sparse.erase m k

/-- The map with `(k, v)` put in the place its key has in the rising order. -/
def Sparse.insert {α : Type} : Sparse α → Nat → α → Sparse α
  | [], k, v => [(k, v)]
  | (a, x) :: m, k, v => if k < a then (k, v) :: (a, x) :: m else (a, x) :: Sparse.insert m k v

/-- Write `v` at key `k`; writing what an unlisted key reads as removes the entry. -/
def Sparse.set {α : Type} [DecidableEq α] (d : Nat → α) (m : Sparse α) (k : Nat) (v : α) : Sparse α :=
  if v = d k then Sparse.erase m k else Sparse.insert (Sparse.erase m k) k v

/-- Change what key `k` holds. -/
def Sparse.modify {α : Type} [DecidableEq α] (d : Nat → α) (m : Sparse α) (k : Nat) (f : α → α) : Sparse α :=
  Sparse.set d m k (f (Sparse.get d m k))

/-- Every key of the map is above `lo`, strictly rising, and no entry says what an unlisted key says. -/
def Sparse.wfFrom {α : Type} [DecidableEq α] (d : Nat → α) : Nat → Sparse α → Bool
  | _, [] => true
  | lo, (a, x) :: m => decide (lo ≤ a) && decide (x ≠ d a) && Sparse.wfFrom d (a + 1) m

/-- The canonical form. -/
def Sparse.wf {α : Type} [DecidableEq α] (d : Nat → α) (m : Sparse α) : Bool := Sparse.wfFrom d 0 m

/-- Write the values of a list at consecutive keys from `k`. -/
def Sparse.setList {α : Type} [DecidableEq α] (d : Nat → α) (m : Sparse α) (k : Nat) : List α → Sparse α
  | [] => m
  | v :: vs => Sparse.setList d (Sparse.set d m k v) (k + 1) vs

/-- The entries that say a list of values at consecutive keys from `k`. -/
def Sparse.run {α : Type} [DecidableEq α] (d : Nat → α) (k : Nat) : List α → Sparse α
  | [] => []
  | v :: vs => if v = d k then Sparse.run d (k + 1) vs else (k, v) :: Sparse.run d (k + 1) vs

/-- Write the values of a long list at consecutive keys from `k`, all at once. -/
def Sparse.putRun {α : Type} [DecidableEq α] (d : Nat → α) (m : Sparse α) (k : Nat) (l : List α) : Sparse α :=
  m.filter (fun e => decide (e.1 < k)) ++ (Sparse.run d k l ++ m.filter (fun e => decide (k + l.length ≤ e.1)))

/-- The `n` values at consecutive keys from `k`. -/
def Sparse.getList {α : Type} (d : Nat → α) (m : Sparse α) (k : Nat) : Nat → List α
  | 0 => []
  | n + 1 => Sparse.get d m k :: Sparse.getList d m (k + 1) n

/-- The map without its entries at keys `p` accepts. -/
def Sparse.drop {α : Type} (m : Sparse α) (p : Nat → Bool) : Sparse α := m.filter (fun e => !p e.1)

end Sys2Proof.Machine
end

