-- ==== Sys2Proof/Machine/CoreState.lean ====
section
/-!
DEFINITION. What one logical core holds beside its registers (chapters 03 to 09): contexts, matrix array, vector engine,
inbound engine, DMA engine; and what one physical position holds, its scratchpad storage. Plain data only.
-/

namespace Sys2Proof.Machine

/-- A 64-byte instruction row in the fetch buffer; a status other than GS_0000 holds it as failed (R153). -/
structure FetchRow where
  row    : Nat
  status : Status
  data   : List Byte
  deriving DecidableEq, Repr

/-- A pending LAUNCH_AT (R168); `late` once its target was reached while the context did not run or its die relocked
(R169, R256). -/
structure LaunchWait where
  target : Chorus
  rd     : Nat
  late   : Bool
  deriving DecidableEq, Repr

/-- A pending WAIT (R244 to R248); `result` is the result word once decided. -/
structure FlagWait where
  all      : Bool
  clr      : Bool
  nf       : Nat
  flags    : List Nat
  rd       : Nat
  deadline : Option Nat
  result   : Option Word64
  deriving DecidableEq, Repr

/-- An entry of a device queue as the front end took it (R299): its index, its bytes, the status of the read. -/
structure QueueEntry where
  index  : Nat
  data   : List TByte
  status : Status
  deriving DecidableEq, Repr

/-- A BASK of this core that waits on a device queue (R299), with its EPOCH (R302); `entry` is the assigned entry, held until
the context runs. -/
structure BaskWait where
  epoch    : BitVec 4
  func     : Nat
  queue    : Nat
  rd       : Nat
  off      : Nat
  deadline : Option Nat
  entry    : Option QueueEntry
  result   : Option Word64
  order    : Nat
  deriving DecidableEq, Repr

/-- A CREDIT_REQ or CREDIT_RET whose response has not arrived (R196, R198), by its place in program order; `dead` once
its response can only be stale, `epoch` its EPOCH at issue (R302). -/
structure CreditWait where
  epoch  : BitVec 4
  rd     : Nat
  ret    : Bool
  addr   : Word64
  issued : Nat
  seq    : Nat
  dead   : Bool
  deriving DecidableEq, Repr

/-- A COUNT or CCOUNT at another core's bank whose response has not come (R191, R206): its place in program order, its PC,
instruction word and RD. -/
structure CountWait where
  seq   : Nat
  pc    : Nat
  instr : Word64
  rd    : Nat
  deriving DecidableEq, Repr

/-- The fault that has stopped a context (R161): its place in program order, when it was reported, elapsed ns, and its
status. -/
structure FaultMark where
  seq    : Nat
  ns     : Nat
  status : Status
  deriving DecidableEq, Repr

/-- A COUNT-TO-FLAG watch (R192). -/
structure Watch where
  off  : Nat
  size : Nat
  thr  : Int
  flag : Nat
  deriving DecidableEq, Repr

/-- A held FINAL of a put group (R220). -/
structure HeldFinal where
  src    : Source
  expect : Nat
  dflag  : Nat
  rel    : Bool
  tag    : Nat
  cgen   : BitVec 4
  ue     : Bool
  xfer   : Nat
  deriving DecidableEq, Repr

/-- The states of a put-group entry in use (R217); a FREE entry is not listed. -/
inductive GroupSt where
  | opened | closed
  deriving DecidableEq, Repr

/-- A put-group entry (R217); times are elapsed nanoseconds, and `hold` is HOLD as it stood when the entry opened (R230). -/
structure Group where
  group    : Nat
  ggen     : Nat
  st       : GroupSt
  landed   : Nat
  failed   : Nat
  final    : Option HeldFinal
  openedAt : Nat
  closedAt : Nat
  hold     : Nat
  deriving DecidableEq, Repr

/-- The kernel a context runs: the front end's serial number of its descriptor, whether it is a firmware kernel (R236), its
partition, the EPOCH its dispatch was stamped with (R302), whether its first instruction has issued (R292), and whether a
target came while the core could not start it (R260). -/
structure Kernel where
  desc     : Nat
  firmware : Bool
  part     : Option Nat
  epoch    : BitVec 4
  begun    : Bool
  late     : Bool
  deriving DecidableEq, Repr

/-- A kernel start held until its Chorus target (R259); `late` as for a LAUNCH_AT (R256, R260). -/
structure TimedWait where
  target : Chorus
  late   : Bool
  kernel : Kernel
  entry  : Nat
  args   : List Word64
  deriving DecidableEq, Repr

/-- Instructions of a context discarded or stopped by a fault, by PC (R306). -/
structure Discards where
  ma  : List Nat
  ve  : List Nat
  dma : List Nat
  deriving DecidableEq, Repr

/-- One resident context of a core. -/
structure CtxState where
  s       : Sparse Word64          -- s1 to s31 (R151); s0 has no storage
  rows    : List FetchRow          -- the fetch buffer, at most four rows (R151)
  busy    : List Nat               -- scalar registers with a result still to come (R155)
  launch  : Option LaunchWait
  wait    : Option FlagWait
  bask    : Option BaskWait
  credits : List CreditWait
  counts  : List CountWait
  watches : List Watch             -- at most 16 (R192)
  groups  : List Group             -- at most 64 entries in use (R217)
  rng     : Sparse (BitVec 32)     -- generator states x_l (R143)
  kernel  : Option Kernel
  timed   : Option TimedWait
  disc    : Discards
  fault   : Option FaultMark
  deriving DecidableEq, Repr

/-- A held buffer (R64, R75): memory rows of element patterns; emptied buffers hold zeros, listed as no rows. -/
structure HeldBuf where
  loaded : Bool
  role   : Bool
  fmt    : Nat
  k      : Nat
  w      : Nat
  rows   : List (List Nat)
  deriving DecidableEq, Repr

/-- A held buffer as the latest issued MHOLD will leave it (R78). -/
structure HoldView where
  role : Bool
  fmt  : Nat
  k    : Nat
  w    : Nat
  deriving DecidableEq, Repr

/-- The matrix instructions a queue entry holds (R73). -/
inductive MatKind where
  | mhold | mmul | mdrain | mdiscard
  deriving DecidableEq, Repr

/-- An entry of the matrix queue with the scalar values copied at issue (R156). -/
structure MatEntry where
  kind : MatKind
  ctx  : CtxId
  seq  : Nat
  pc   : Nat
  f    : IBits
  opw  : Word64
  scw  : Word64
  deriving DecidableEq, Repr

/-- An open-tile record (R81, R100). It exists from the issue of its opening MMUL, whose place in program order is `oseq`;
`live` once that MMUL has started; `cseq` is the place of the issued drain or discard that closes it (R107). `afmt` is 0,
9 or 14 (R111). -/
structure Tile where
  ctx     : CtxId
  row     : Nat
  nvec    : Nat
  role    : Bool
  w       : Nat
  afmt    : Nat
  scales  : Word64
  s       : Nat
  oseq    : Nat
  cseq    : Option Nat
  sat     : Bool
  ovf     : Bool
  nan     : Bool
  ue      : Bool
  live    : Bool
  deriving DecidableEq, Repr

/-- The array's latched last vector (R82, R86) with the buffer it streamed against. -/
structure LastVec where
  hbuf  : Bool
  pass  : Nat
  elems : List Nat
  deriving DecidableEq, Repr

/-- The vector instructions a queue entry holds (R131). -/
inductive VecKind where
  | vld | vst | vop | vcvt | vred | vrow | nload | nrun | vseed
  deriving DecidableEq, Repr

/-- An entry of the vector queue with the scalar values copied at issue (R156). -/
structure VecEntry where
  kind : VecKind
  ctx  : CtxId
  seq  : Nat
  pc   : Nat
  f    : IBits
  args : List Word64
  late : Bool                      -- an NRUN issued behind an NLOAD of its slot (R140, R141)
  deriving DecidableEq, Repr

/-- Indications of a VCVT that may not have reached VE_XFLAGS_k yet (R134, R145): its destination registers, the bits, what
the register held before, and the most CCLK until its result is usable (R141). -/
structure Fresh where
  ctx  : CtxId
  regs : List Nat
  bits : Nat
  was  : Nat
  left : Nat
  deriving DecidableEq, Repr

/-- The states of a 4 KiB credit unit (R195). -/
inductive UnitSt where
  | idle | free | granted | held
  deriving DecidableEq, Repr

/-- A grant entry (R196 to R199); `freedAt` is when it last became free, in elapsed nanoseconds,
none since reset. -/
structure Grant where
  used    : Bool
  gen     : BitVec 4
  src     : Option Source
  lf      : Bool
  first   : Nat
  count   : Nat
  madeAt  : Nat
  lease   : Nat
  freedAt : Option Nat
  deriving DecidableEq, Repr

/-- The transfers of R208. -/
inductive DmaKind where
  | dget | dput | put | putf
  deriving DecidableEq, Repr

/-- An entry of the DMA queue (R212). `remote` is the virtual address or the put address word and `pieces` its translated
pieces, chip-local address and length (R415). `epoch` is EPOCH (R302) and `tmo` TMO (R230) as they stood at issue, `resp` the response so far and
`data` what a remote read returned. -/
structure DmaEntry where
  kind   : DmaKind
  ctx    : CtxId
  epoch  : BitVec 4
  seq    : Nat
  pc     : Nat
  remote : Nat
  pieces : List (Nat × Nat)
  off    : Nat
  len    : Nat
  ctl    : Word64
  nc     : Bool
  fen    : Bool
  flag   : Nat
  f      : IBits
  issued : Nat
  tmo    : Nat
  status : Status
  resp   : Option Status
  data   : List TByte
  deriving DecidableEq, Repr

/-- What a granted bank access gave its port (R179, R185, R187, R191): the bytes of a read or the old counter, and a
status. -/
structure BankOut where
  req    : BankReq
  data   : List TByte
  status : Status
  deriving DecidableEq, Repr

/-- A line of 128 B of the read buffer (R214): the context whose kernel filled it, its number, its bytes. -/
structure BufLine where
  ctx  : CtxId
  line : Nat
  data : List TByte
  deriving DecidableEq, Repr

/-- A bank request that waits for its grant, with its arrival order (R178). -/
structure PendReq where
  req   : BankReq
  order : Nat
  deriving DecidableEq, Repr

/-- The banks of a core (R176 to R179): the requests that wait, the CCLK of the last access, the accesses granted in that
CCLK (bank, port, and whether it writes), the banks held by the second CCLK of a partial write or at-memory operation with
that CCLK, and what the last granted access gave. -/
structure BankState where
  pend : List PendReq
  cclk : Nat
  used : List (Nat × Port × Bool)
  held : List (Nat × Nat)
  out  : Option BankOut
  deriving DecidableEq, Repr

/-- A logical core. Its registers lie in the register file; its scratchpad in the position it is bound to. -/
structure CoreState where
  ctxs    : Sparse CtxState
  run     : CtxId                  -- the running context (R419)
  h0      : HeldBuf
  h1      : HeldBuf
  last    : Option LastVec
  seqNo   : Nat                    -- the model's own: program order of the next instruction
  mq      : List MatEntry          -- at most eight
  acc     : Sparse (BitVec 32)     -- accumulator word row*64+column (R81)
  accBad  : Sparse Bool            -- poisoned accumulator elements (R103)
  tiles   : List Tile
  vregs   : Sparse (BitVec 32)     -- container reg*64+lane (R116)
  vbad    : Sparse Bool            -- uncorrectable containers (R142)
  vq      : List VecEntry          -- at most eight
  fresh   : List Fresh             -- oldest first
  slots   : Sparse (List Byte)     -- program images; an empty list is an empty slot (R118)
  units   : Sparse UnitSt          -- 768 credit units (R195)
  grants  : Sparse Grant           -- 256 grant entries (R199)
  dq      : List DmaEntry          -- at most sixteen
  rbuf    : List BufLine           -- at most 64 lines, the newest first (R214)
  bank    : BankState              -- the banks' arbitration (R176, R178)
  winHeld : Bool                   -- the window is held (R39)
  sliceAt : Nat                    -- when the running context's slice began, elapsed ns (R419)
  sliceEnd : Option Nat            -- when it ended
  deriving DecidableEq, Repr

/-- The scratchpad storage of a physical position (R175, R183 to R186). -/
structure Pad where
  bytes   : Sparse Byte
  written : Sparse Bool            -- by word
  poison  : Sparse Bool            -- by word
  errs    : Sparse Err             -- by word
  wb      : List Nat               -- words whose corrected write-back is pending (R185)
  ueCnt   : Nat                    -- uncorrectable events counted for retirement (R495)
  spares  : Sparse Nat             -- spare rows used, by 2*bank+deck (R500)
  cands   : List (Nat × Nat)       -- repair candidates, bank and row, in the order found (R500)
  fixed   : List Nat               -- words written back with a correction (R500)
  deriving DecidableEq, Repr

/-- A TLB entry: one page mapping (R415). -/
structure TlbEntry where
  part : Nat
  va   : Nat
  pa   : Nat
  size : Nat
  wr   : Bool
  deriving DecidableEq, Repr

/-- A physical position: storage, TLB (most recently used first), and the accesses held while it is in RETAIN (R458). -/
structure PosState where
  pad     : Pad
  tlb     : List TlbEntry
  heldAcc : Nat
  deriving DecidableEq, Repr

/-- The generator's start state for SEED, lane l (R143). -/
def rngSeed (seed l : Nat) : BitVec 32 :=
  let x := BitVec.ofNat 32 seed ^^^ BitVec.ofNat 32 ((l + 1) * 0x9E3779B9)
  if x = 0#32 then 1#32 else x

/-- A context with nothing in it (R118, R151, R192, R217; the generator as firmware seeds it, R143). -/
def CtxState.reset : CtxState :=
  { s := [], rows := [], busy := [], launch := none, wait := none, bask := none, credits := [], counts := [],
    watches := [],
    groups := [], rng := [], kernel := none, timed := none, disc := ⟨[], [], []⟩, fault := none }

/-- An empty held buffer (R82, R86). -/
def HeldBuf.empty : HeldBuf := ⟨false, false, 0, 0, 0, []⟩

/-- A grant entry never used. -/
def Grant.reset : Grant := ⟨false, 0, none, false, 0, 0, 0, 0, none⟩

/-- A core after reset. -/
def CoreState.reset : CoreState :=
  { ctxs := [], run := 0, h0 := HeldBuf.empty, h1 := HeldBuf.empty, last := none, seqNo := 0, mq := [],
    acc := [], accBad := [], tiles := [], vregs := [], vbad := [], vq := [], fresh := [],
    slots := [], units := [], grants := [], dq := [], rbuf := [], bank := ⟨[], 0, [], [], none⟩, winHeld := false,
    sliceAt := 0, sliceEnd := none }

/-- A scratchpad after reset: every word unwritten (R184). -/
def Pad.reset : Pad := ⟨[], [], [], [], [], 0, [], [], []⟩

/-- A position after reset. -/
def PosState.reset : PosState := ⟨Pad.reset, [], 0⟩

end Sys2Proof.Machine
end

