-- ==== Sys2Proof/Machine/ChipState.lean ====
section
/-!
DEFINITION. What the chip holds outside its cores and beside its registers: front end (chapter 11), HBM (14), partitions
(15) and Chorus discipline (10). Plain data only.
-/

namespace Sys2Proof.Machine

/-- A fetched or chained descriptor that has not completed (R286 to R294). -/
structure Desc where
  id      : Nat
  func    : Nat
  ring    : Nat
  ctl     : Word64
  launch  : Word64
  args    : List Word64
  didx    : Nat
  chained : Bool
  order   : Nat
  started : Bool
  left    : List Nat           -- logical cores that have not completed
  start   : Option Nat         -- whole ns of the earliest first issue
  endNs   : Nat                -- whole ns of the completion
  late    : Bool
  target  : Option Chorus      -- launch target T of R259, or L of R274
  ready   : Bool               -- launch condition met
  status  : Status             -- first failure so far
  xstatus : Status
  raw     : List Byte
  begun   : Bool               -- its first instruction may issue: not held for a target
  hold    : List Nat           -- of a successor, the cores of its predecessor (R294)
  after   : Nat                -- posted writes that came before the doorbells before its fetch (R215)
  deriving DecidableEq, Repr

/-- A completion record in completion order (R293): while `wait` names a descriptor, its successor's read is still to
come, and `quiet` says that the record goes unwritten if a successor is found (R287, R294). -/
structure HeldRec where
  wait  : Option Nat
  quiet : Bool
  data  : List Byte
  deriving DecidableEq, Repr

/-- A ring beside its registers: the doorbell tail, the completion head, the records not yet written in completion order,
and the chain step reads that wait (R283, R293, R294). -/
structure RingSt where
  tail    : Nat
  cqHead  : Nat
  fetched : Nat                -- serial order of the next fetched descriptor
  held    : List HeldRec
  chainRd : List (Nat × Nat × Desc)  -- order, SUCC and the predecessor of a chain read to come
  deriving DecidableEq, Repr

/-- What the front end knows of a fault that quarantines a partition (R305); `slot` is the
logical core on the chip, none for the front end's own. -/
structure Cause where
  slot   : Option Nat
  unit   : Nat
  status : Status
  core   : Nat
  ctx    : Nat
  coin   : Bool
  pc     : Nat
  code   : Nat
  uop    : Nat
  instr  : Word64
  addr   : Nat
  time   : Nat
  desc   : Option Desc
  deriving DecidableEq, Repr

/-- A pending INVAL (R416, R417). -/
structure Inval where
  va      : Nat
  len     : Nat
  newRoot : Option Nat
  fence   : Nat
  fenced  : Bool
  func    : Nat
  slot    : Nat
  tag     : Nat
  ranges  : List (Nat × Nat × Nat)   -- kind (0 transfer, 1 FILL, 2 Leapfrog), unit and number still to complete
  deriving DecidableEq, Repr

/-- A partition beside its registers (R302, R307, R416). -/
structure PartSt where
  epoch  : BitVec 4
  quar   : Option Cause
  invals : List Inval
  deriving DecidableEq, Repr

/-- A posted BAR write that waits for a held window or a sleeping position (R39, R215, R402), by its order of arrival. -/
structure Posted where
  func  : Nat
  bar   : Bar
  off   : Nat
  data  : List Byte
  order : Nat
  deriving DecidableEq, Repr

/-- A queue entry that came back after later ones had been taken (R303): function, queue, entry. -/
structure Returned where
  func  : Nat
  queue : Nat
  entry : QueueEntry
  deriving DecidableEq, Repr

/-- The front end beside its registers and rings (R285, R290, R415): `posted` are the posted writes that wait, `postedNo` the
number that have had to, `doors` that number at each function's last doorbell (R215), `internal` the records of the
scheduler core's internal completion ring (R236). -/
structure FeState where
  rings  : Sparse RingSt       -- by 8*function+ring
  descs  : List Desc
  nextId : Nat
  tlb    : List TlbEntry
  parts  : Sparse PartSt
  baskNo : Nat
  posted : List Posted
  postedNo : Nat
  doors  : Sparse Nat          -- by function
  returned : List Returned
  internal : List (List Byte)
  deriving DecidableEq, Repr

/-- A FILL as it stands in memory: a range of blocks holding one pattern, or poison (R386); stacks in `skip` were
offline and kept what they had. -/
structure FillRec where
  lo      : Nat
  hi      : Nat
  pattern : Word64
  poison  : Bool
  skip    : Nat
  deriving DecidableEq, Repr

/-- A FILL in progress (R386); `slot` is the message slot it came in, none for a firmware processor's. -/
structure FillRun where
  func    : Nat
  slot    : Option Nat
  tag     : Nat
  va      : Nat
  len     : Nat
  pieces  : List (Nat × Nat)
  pattern : Word64
  poison  : Bool
  deriving DecidableEq, Repr

/-- HBM (R381 to R392). Bytes, written blocks, poisoned words and decoder outcomes lie over the newest fill. -/
structure HbmState where
  fills  : List FillRec        -- newest first
  bytes  : Sparse Byte
  wrote  : Sparse Bool         -- by block
  poison : Sparse Bool         -- by word
  errs   : Sparse Err          -- by block
  wb     : List Nat            -- blocks whose corrected write-back is pending (R384)
  runs   : List FillRun
  scrub  : Sparse Nat          -- blocks that each pseudo-channel's scrub has visited, by chip-wide channel (R389)
  corr1  : List Nat            -- granules the scrubber corrected in the previous pass (R391)
  corr2  : List Nat            -- granules the scrubber corrected in this pass
  cands  : List Nat            -- repair candidates, granules in the order found (R391)
  hard   : List Nat            -- granules recorded for a hard repair (R392)
  spares : Sparse Nat          -- spare rows used, by chip-wide channel (R391)
  stuck  : List Nat            -- candidates that no spare row is left for (R392)
  ans    : List TByte          -- what the last controller read returned (R384)
  ansSt  : Status              -- how the last controller access ended
  leaks  : Sparse Nat          -- by bucket register: the end of its last leak interval, elapsed ns (R388)
  swept  : Sparse (Nat × Nat)  -- by chip-wide channel: its last scrub read, elapsed ns, and the ns its pass is behind (R389, R463)
  queue  : List (Nat × Nat)    -- requests in the controllers' queues: pseudo-channel, elapsed ns at which it leaves (R379)
  deriving DecidableEq, Repr

/-- A pending COMMIT_AT (R267, R268). -/
structure Commit where
  target : Chorus
  scope  : Nat
  lateOk : Bool
  passed : Bool                -- a step has passed the target (R258)
  func   : Nat
  slot   : Option Nat
  tag    : Nat
  deriving DecidableEq, Repr

/-- The last beacon received on a port (R262): its sender's Chorus at transmission and this chip's at reception, in
1/256 ns. -/
structure BeaconIn where
  port : Nat
  sent : Nat
  at_  : Nat
  deriving DecidableEq, Repr

/-- A beacon as sent (R262); `time` is Chorus at transmission, `sentAt` elapsed ns, `echo` the timestamps of the last beacon
received from the other end: its transmission and its reception here. -/
structure BeaconOut where
  port   : Nat
  link   : Nat
  time   : Chorus
  sentAt : Nat
  root   : Nat
  hops   : Nat
  state  : Nat
  ebound : Nat
  echo   : Option (Nat × Nat)
  deriving DecidableEq, Repr

/-- Chorus discipline beside its registers (R257 to R264); times are elapsed ns, offsets 1/256 ns. -/
structure ChrState where
  trim     : Int               -- frequency trim, in 2^-32 of the nominal rate
  phase    : Int               -- what the trim has gained or lost of one TCLK edge, in 2^-32
  slew     : Int               -- offset still to be removed by slew edges
  slewWait : Nat               -- edges until the next slew edge may come
  meas     : List Int          -- the last 16 offsets, newest first
  good     : Nat               -- consecutive measurements within 1 ns
  lastBcn  : Nat               -- when the last valid beacon came
  holdAt   : Nat               -- when HOLDOVER was entered
  backup   : Bool
  lockEb   : Nat               -- the last EBOUND in LOCKED since the CHR scope was committed
  heldEb   : Nat               -- EBOUND at the entry to HOLDOVER
  delay    : Int               -- delay of the last measurement, in 1/256 ns (R263)
  fracs    : List (Agent × BitVec 8)  -- CHR_FRAC per reading agent (R276)
  commit   : Option Commit
  arrivals : List (Nat × Nat × Nat)   -- at a barrier root: group, member chip, its last step
  arrAt    : List (Nat × Nat × Nat)   -- this chip's arrivals: group, step, elapsed ns
  notices  : List (Nat × Nat × Nat)   -- group, step, launch instant L
  syncGood : Nat               -- consecutive sync edges within 1 ns (R261)
  lastSync : Option Nat        -- elapsed ns of the last valid sync edge
  syncRej  : Nat               -- consecutive rejected sync edges (R521)
  root     : Nat               -- root chip id that the parent's beacons name (R262)
  sent     : List BeaconOut    -- the last beacon sent on each port
  rcvd     : List BeaconIn     -- the last beacon received on each port
  deriving DecidableEq, Repr

/-- A record of the firmware log ring (R447). -/
structure LogRec where
  code : Nat
  proc : Nat
  time : Nat
  seq  : Nat
  data : List Nat
  deriving DecidableEq, Repr

/-- A ring with nothing in it. -/
def RingSt.reset : RingSt := ⟨0, 0, 0, [], []⟩

/-- A partition with nothing pending. -/
def PartSt.reset : PartSt := ⟨0, none, []⟩

/-- The front end after reset. -/
def FeState.reset : FeState := ⟨[], [], 0, [], [], 0, [], 0, [], [], []⟩

/-- HBM with no block written (R385). -/
def HbmState.reset : HbmState := ⟨[], [], [], [], [], [], [], [], [], [], [], [], [], [], [], 0, [], [], []⟩

/-- The discipline after power-on: state FREE, no trim (R254, R261). -/
def ChrState.reset : ChrState := ⟨0, 0, 0, 0, [], 0, 0, 0, false, 0xFFFF, 0, 0, [], none, [], [], [], 0, none, 0, 0, [], []⟩

end Sys2Proof.Machine
end

