-- ==== Sys2Proof/Machine/Regs.lean ====
section
/-!
DEFINITION. The register map: where every register of the manual lies (R529), what fields it has, how each is accessed
(R13) and what it resets to. Registers are named by functions that give their chip-local address; the names are the
manual's. The register file of the machine is keyed by these addresses, one home for each register (R530).
-/

namespace Sys2Proof

/-- Logical slots per cluster (R21). -/
def Variant.slots : Variant → Nat
  | .a800 => 25
  | _ => 20

/-- Logical slots of the chip (R2). -/
def Variant.cores (v : Variant) : Nat := 32 * v.slots

/-- Stacks fitted (R2). -/
def Variant.stack (v : Variant) (s : Nat) : Bool :=
  decide (s < 8) && !(v == .a640 && (s == 3 || s == 7))

/-- Links present (R2). -/
def Variant.link (v : Variant) (l : Nat) : Bool := decide (l < (if v = .n640 then 8 else 16))

/-- Whether the Leapfrog engine is present (R2). -/
def Variant.lf (v : Variant) : Bool := v != .n640

/-- End of populated HBM (R3, R36). -/
def Variant.hbmEnd (v : Variant) : Nat := if v = .a640 then 0x48_0000_0000 else 0x60_0000_0000

/-- The VARIANT code of R7. -/
def Variant.code : Variant → Nat
  | .a800 => 1
  | .a640 => 2
  | .n640 => 3

end Sys2Proof

namespace Sys2Proof.Machine

/-- The access codes of R13. -/
inductive Acc where
  | ro | rw | w1c | w1s | rc | wo
  deriving DecidableEq, Repr

/-- A field [hi:lo] of a register map, with its access code and reset value. -/
structure Field where
  hi    : Nat
  lo    : Nat
  acc   : Acc
  reset : Nat
  deriving DecidableEq, Repr

/-- A register's layout: 64 or 32 bits, and its fields; every other bit is reserved. -/
structure RegInfo where
  wide   : Bool
  fields : List Field
  deriving DecidableEq, Repr

namespace R

def topBase : Nat := 0x0200_0000_0000
def chrBase : Nat := 0x0200_0001_0000
def lnkBase : Nat := 0x0200_0002_0000
def lfBase  : Nat := 0x0200_0003_0000
def hbmBase : Nat := 0x0200_0004_0000
def mmuBase : Nat := 0x0200_0005_0000
def pwrBase : Nat := 0x0200_0006_0000
def secBase : Nat := 0x0200_0007_0000
def fwBase  : Nat := 0x0200_0008_0000
def feChip  : Nat := 0x0200_0010_0000
def feBase (f : Nat) : Nat := 0x0200_0010_0000 + 0x2000 * (f + 1)
def mbxBase (f : Nat) : Nat := 0x0200_0020_0000 + 0x1000 * f
def seqBase (k : Nat) : Nat := 0x0200_1000_0000 + 0x2000 * k
def maBase (k : Nat) : Nat := seqBase k + 0x400
def veBase (k : Nat) : Nat := seqBase k + 0x800
def spBase (k : Nat) : Nat := seqBase k + 0xC00
def flgBase (k : Nat) : Nat := seqBase k + 0x1000

/-! TOP_ (R8, R23, R24, R399, R501 to R503, R526, R527, R534 to R539). -/
def TOP_CAP_GEN : Nat := topBase
def TOP_REG_ERR : Nat := topBase + 0x10
def TOP_REG_ERR_CNT : Nat := topBase + 0x18
def TOP_CAP_ID : Nat := topBase + 0x100
def TOP_CAP_UNIT : Nat := topBase + 0x108
def TOP_CAP_CLUSTER : Nat := topBase + 0x110
def TOP_CAP_PROC0 : Nat := topBase + 0x118
def TOP_CAP_PROC1 : Nat := topBase + 0x120
def TOP_INV_CORE : Nat := topBase + 0x130
def TOP_INV_SHIP : Nat := topBase + 0x138
def TOP_INV_MEM : Nat := topBase + 0x140
def TOP_INV_LANE : Nat := topBase + 0x148
def TOP_CLUSTER (c : Nat) : Nat := topBase + 0x800 + 4 * c
def TOP_CKTEST : Nat := topBase + 0xA00
def TOP_BOOT_STAT : Nat := topBase + 0xA10
def TOP_REGEN_CFG : Nat := topBase + 0xA20
def TOP_REGEN_STAT : Nat := topBase + 0xA28
def TOP_INPUT_STAT : Nat := topBase + 0xA30
def TOP_SYNC_CFG : Nat := topBase + 0xA38
def TOP_SLOT_MAP (k : Nat) : Nat := topBase + 0x1000 + 4 * k
def TOP_POS (p : Nat) : Nat := topBase + 0x2000 + 4 * p

/-! CHR_ (R276 to R279). -/
def CHR_NOW : Nat := chrBase
def CHR_FRAC : Nat := chrBase + 0x8
def CHR_STATE : Nat := chrBase + 0x10
def CHR_OFFSET : Nat := chrBase + 0x18
def CHR_CFG : Nat := chrBase + 0x20
def CHR_LOAD : Nat := chrBase + 0x28
def CHR_LATE_CNT : Nat := chrBase + 0x30
def CHR_STEP_CNT : Nat := chrBase + 0x38
def CHR_CFG_SH : Nat := chrBase + 0x40
def CHR_LOAD_SH : Nat := chrBase + 0x48
def CHR_BARRIER_CFG : Nat := chrBase + 0x50
def CHR_BARRIER_CFG_SH : Nat := chrBase + 0x58
def CHR_STEP (g : Nat) : Nat := chrBase + 0x100 + 8 * g

/-! LNK_ (R335 to R342). -/
def LNK_CTL (l : Nat) : Nat := lnkBase + 0x80 * l
def LNK_STAT (l : Nat) : Nat := lnkBase + 0x80 * l + 0x8
def LNK_FEC_CORR (l : Nat) : Nat := lnkBase + 0x80 * l + 0x10
def LNK_FEC_UNC (l : Nat) : Nat := lnkBase + 0x80 * l + 0x18
def LNK_RETRY (l : Nat) : Nat := lnkBase + 0x80 * l + 0x1C
def LNK_LDROP (l : Nat) : Nat := lnkBase + 0x80 * l + 0x20
def LNK_DOWN (l : Nat) : Nat := lnkBase + 0x80 * l + 0x24
def LNK_PORT (p : Nat) : Nat := lnkBase + 0x1000 + 0x20 * p
def LNK_PORT_SH (p : Nat) : Nat := lnkBase + 0x1100 + 0x20 * p
def LNK_TOPO : Nat := lnkBase + 0x1200
def LNK_TOPO_SH : Nat := lnkBase + 0x1208
def LNK_OVR (i : Nat) : Nat := lnkBase + 0x1300 + 8 * i
def LNK_OVR_SH (i : Nat) : Nat := lnkBase + 0x1400 + 8 * i
def LNK_CWIN_A (p w : Nat) : Nat := lnkBase + 0x1600 + 0x80 * p + 0x10 * w
def LNK_CWIN_B (p w : Nat) : Nat := lnkBase + 0x1600 + 0x80 * p + 0x10 * w + 8
def LNK_CWIN_A_SH (p w : Nat) : Nat := lnkBase + 0x1800 + 0x80 * p + 0x10 * w
def LNK_CWIN_B_SH (p w : Nat) : Nat := lnkBase + 0x1800 + 0x80 * p + 0x10 * w + 8
def LNK_DROP_CNT : Nat := lnkBase + 0x1F00
def LNK_COMPAT_DROP_CNT : Nat := lnkBase + 0x1F04

/-! LF_ (R373 to R377). -/
def LF_CH_BASE (c : Nat) : Nat := lfBase + 0x40 * c
def LF_CH_CFG (c : Nat) : Nat := lfBase + 0x40 * c + 0x8
def LF_CH_PTR (c : Nat) : Nat := lfBase + 0x40 * c + 0xC
def LF_CH_DB (c : Nat) : Nat := lfBase + 0x40 * c + 0x10
def LF_CH_CTL (c : Nat) : Nat := lfBase + 0x40 * c + 0x14
def LF_CH_ERR (c : Nat) : Nat := lfBase + 0x40 * c + 0x18
def LF_GRP (g w : Nat) : Nat := lfBase + 0x1000 + 0x20 * g + 8 * w
def LF_GRP_SH (g w : Nat) : Nat := lfBase + 0x1800 + 0x20 * g + 8 * w
def LF_GSTAT (g : Nat) : Nat := lfBase + 0x2000 + 8 * g
def LF_RT (i w : Nat) : Nat := lfBase + 0x2400 + 0x10 * i + 8 * w
def LF_RT_SH (i w : Nat) : Nat := lfBase + 0x2600 + 0x10 * i + 8 * w
def LF_CFG : Nat := lfBase + 0x2800
def LF_DROP_CNT : Nat := lfBase + 0x2808
def LF_PERM_OVF_CNT : Nat := lfBase + 0x280C

/-! HBM_ (R394 to R396). -/
def HBM_STAT (s : Nat) : Nat := hbmBase + 0x100 * s
def HBM_SCRUB_CFG (s : Nat) : Nat := hbmBase + 0x100 * s + 0x8
def HBM_SCRUB_STAT (s : Nat) : Nat := hbmBase + 0x100 * s + 0x10
def HBM_UE_FIRST (s : Nat) : Nat := hbmBase + 0x100 * s + 0x18
def HBM_UE_CNT (s : Nat) : Nat := hbmBase + 0x100 * s + 0x20
def HBM_BKT (s : Nat) : Nat := hbmBase + 0x100 * s + 0x28
def HBM_PPR (s : Nat) : Nat := hbmBase + 0x100 * s + 0x30
def HBM_BKT_CFG : Nat := hbmBase + 0x1000
def HBM_CBKT (p : Nat) : Nat := hbmBase + 0x2000 + 4 * p

/-! MMU_ and the chip-wide FE_ part (R425 to R428). -/
def MMU_PCFG (p : Nat) : Nat := mmuBase + 0x200 * p
def MMU_PJOB (p : Nat) : Nat := mmuBase + 0x200 * p + 0x8
def MMU_TOFF (p : Nat) : Nat := mmuBase + 0x200 * p + 0x10
def MMU_ROOT (p : Nat) : Nat := mmuBase + 0x200 * p + 0x18
def MMU_FAULT (p : Nat) : Nat := mmuBase + 0x200 * p + 0x20
def MMU_WALK_CNT (p : Nat) : Nat := mmuBase + 0x200 * p + 0x28
def MMU_EXT (p e w : Nat) : Nat := mmuBase + 0x200 * p + 0x40 + 0x10 * e + 8 * w
def FE_PSHARE (p : Nat) : Nat := feChip + 4 * p
def FE_PSHARE_SH (p : Nat) : Nat := feChip + 0x40 + 4 * p
def FE_SCHED_CFG : Nat := feChip + 0x80

/-! PWR_ (R474 to R476). -/
def PWR_CHAR : Nat := pwrBase
def PWR_STAT : Nat := pwrBase + 0x10
def PWR_CCLK (d : Nat) : Nat := pwrBase + 0x20 + 8 * d
def PWR_TRIP : Nat := pwrBase + 0x30
def PWR_TIN : Nat := pwrBase + 0x40
def PWR_SLEEP_REQ : Nat := pwrBase + 0x100
def PWR_SLEEP_STAT : Nat := pwrBase + 0x108
def PWR_LIMIT : Nat := pwrBase + 0x400
def PWR_RAIL (c : Nat) : Nat := pwrBase + 0x408 + 8 * c
def PWR_THERM : Nat := pwrBase + 0x418
def PWR_PLANT : Nat := pwrBase + 0x420
def PWR_LIMIT_SH : Nat := pwrBase + 0x500
def PWR_RAIL_SH (c : Nat) : Nat := pwrBase + 0x508 + 8 * c
def PWR_THERM_SH : Nat := pwrBase + 0x518
def PWR_PLANT_SH : Nat := pwrBase + 0x520
def PWR_RCNT (d : Nat) : Nat := pwrBase + 0x1000 + 4 * d
def PWR_DSTATE (d : Nat) : Nat := pwrBase + 0x2000 + 4 * d

/-! FW_ (R454, R504). -/
def FW_STAT (i : Nat) : Nat := fwBase + 8 * i
def FW_WDT (i : Nat) : Nat := fwBase + 0x400 + 4 * i
def FW_KICK (i : Nat) : Nat := fwBase + 0x600 + 4 * i
def FW_SHED_STAT : Nat := fwBase + 0x800

/-! FE_ of function f (R281, R295, R296). -/
def FE_SQ_BASE (f r : Nat) : Nat := feBase f + 0x40 * r
def FE_CQ_BASE (f r : Nat) : Nat := feBase f + 0x40 * r + 0x8
def FE_RING_CFG (f r : Nat) : Nat := feBase f + 0x40 * r + 0x10
def FE_RING_STAT (f r : Nat) : Nat := feBase f + 0x40 * r + 0x14
def FE_SQ_HEAD (f r : Nat) : Nat := feBase f + 0x40 * r + 0x18
def FE_CQ_PTR (f r : Nat) : Nat := feBase f + 0x40 * r + 0x1C
def FE_CHAIN_BASE (f : Nat) : Nat := feBase f + 0x200
def FE_CHAIN_CFG (f : Nat) : Nat := feBase f + 0x208
def FE_FAULT_BASE (f : Nat) : Nat := feBase f + 0x210
def FE_FAULT_CFG (f : Nat) : Nat := feBase f + 0x218
def FE_FAULT_PTR (f : Nat) : Nat := feBase f + 0x21C
def FE_LATE_CNT (f : Nat) : Nat := feBase f + 0x220
def FE_Q_BASE (f q : Nat) : Nat := feBase f + 0x1000 + 0x10 * q
def FE_Q_CFG (f q : Nat) : Nat := feBase f + 0x1000 + 0x10 * q + 0x8
def FE_Q_PTR (f q : Nat) : Nat := feBase f + 0x1000 + 0x10 * q + 0xC

/-! MBX_ of function f (R453). -/
def MBX_POST (f : Nat) : Nat := mbxBase f
def MBX_ACK (f : Nat) : Nat := mbxBase f + 0x8
def MBX_STAT (f : Nat) : Nat := mbxBase f + 0xC
def MBX_NR_HEAD (f : Nat) : Nat := mbxBase f + 0x10
def MBX_NR_TAIL (f : Nat) : Nat := mbxBase f + 0x14
def MBX_NR_LOST (f : Nat) : Nat := mbxBase f + 0x18

/-! Per-core blocks of logical core k, context c (R83, R87 to R89, R102, R130, R146, R172 to R174, R200 to R204,
R227 to R232, R250, R252). -/
def SEQ_STATE (k c : Nat) : Nat := seqBase k + 4 * c
def SEQ_PC (k c : Nat) : Nat := seqBase k + 0x10 + 4 * c
def SEQ_LATE_CNT (k c : Nat) : Nat := seqBase k + 0x20 + 4 * c
def SEQ_ISSUE_CNT (k : Nat) : Nat := seqBase k + 0x40
def SEQ_GATED_CNT (k : Nat) : Nat := seqBase k + 0x48
def MA_BALLAST_CTL (k : Nat) : Nat := maBase k
def MA_RISE_CTL (k : Nat) : Nat := maBase k + 0x4
def MA_LEVEL (k : Nat) : Nat := maBase k + 0x8
def MA_CTX_ACC (k c : Nat) : Nat := maBase k + 0x10 + 4 * c
def MA_ACTIVE_CNT (k : Nat) : Nat := maBase k + 0x20
def MA_BALLAST_CNT (k : Nat) : Nat := maBase k + 0x28
def MA_EXC (k c : Nat) : Nat := maBase k + 0x30 + 4 * c
def VE_CTX (k c : Nat) : Nat := veBase k + 4 * c
def VE_XFLAGS (k c : Nat) : Nat := veBase k + 0x20 + 4 * c
def VE_ACTIVE_CNT (k : Nat) : Nat := veBase k + 0x40
def SP_SEG (k s : Nat) : Nat := spBase k + 0x100 + 4 * s
def SP_RX_CTL (k c : Nat) : Nat := spBase k + 0x200 + 4 * c
def SP_RX_STAT (k c : Nat) : Nat := spBase k + 0x210 + 4 * c
def SP_CREDIT_CFG (k : Nat) : Nat := spBase k + 0x220
def SP_DROP_CNT (k : Nat) : Nat := spBase k + 0x230
def SP_UE_FIRST (k : Nat) : Nat := spBase k + 0x238
def SP_UE_CNT (k : Nat) : Nat := spBase k + 0x240
def SP_PG_CFG (k c : Nat) : Nat := spBase k + 0x300 + 4 * c
def SP_PG_CTL (k c : Nat) : Nat := spBase k + 0x310 + 4 * c
def SP_PG_STAT (k c : Nat) : Nat := spBase k + 0x320 + 4 * c
def SP_XFER_CFG (k : Nat) : Nat := spBase k + 0x340
def SP_XFER_ERR (k c : Nat) : Nat := spBase k + 0x360 + 8 * c
def SP_PG_ERR (k c : Nat) : Nat := spBase k + 0x380 + 8 * c
def SP_PG_DROP_CNT (k : Nat) : Nat := spBase k + 0x3A0
def FLG_CTX (k c : Nat) : Nat := flgBase k + 4 * c
def FLG_CTX_SELF (k : Nat) : Nat := flgBase k + 0x10
def FLG_FW_SET (k : Nat) : Nat := flgBase k + 0x40
def FLG_FW_CLR (k : Nat) : Nat := flgBase k + 0x48
def FLG_WAIT (k c : Nat) : Nat := flgBase k + 0x80 + 8 * c
def FLG_TMO_CNT (k c : Nat) : Nat := flgBase k + 0xC0 + 4 * c
def FLG_STATE (k g : Nat) : Nat := flgBase k + 0x100 + 8 * g

end R

/-- Index of an offset in an array of `n` registers from `base`, `stride` bytes apart. -/
def idx (off base stride n : Nat) : Option Nat :=
  if off < base then none
  else if (off - base) % stride = 0 ∧ (off - base) / stride < n then some ((off - base) / stride)
  else none

/-- A 32-bit register of the fields given. -/
def r32 (fs : List Field) : Option RegInfo := some ⟨false, fs⟩

/-- A 64-bit register of the fields given. -/
def r64 (fs : List Field) : Option RegInfo := some ⟨true, fs⟩

/-- One read-only field over the whole register. -/
def ro32 (reset : Nat) : Option RegInfo := r32 [⟨31, 0, .ro, reset⟩]

/-- One read-only field over the whole register. -/
def ro64 (reset : Nat) : Option RegInfo := r64 [⟨63, 0, .ro, reset⟩]

/-- The first layout found. -/
def orElse (a : Option RegInfo) (b : Unit → Option RegInfo) : Option RegInfo :=
  match a with
  | some i => some i
  | none => b ()

/-- The layout for an array of registers. -/
def arr (off base stride n : Nat) (f : Nat → Option RegInfo) (b : Unit → Option RegInfo) : Option RegInfo :=
  match idx off base stride n with
  | some i => f i
  | none => b ()

def topLayout (off : Nat) : Option RegInfo :=
  match off with
  | 0x0 => r32 [⟨31, 0, .ro, 1⟩]
  | 0x10 => r64 [⟨63, 48, .rc, 0⟩, ⟨47, 0, .rc, 0⟩]
  | 0x18 => ro32 0
  | 0x100 => r64 [⟨63, 56, .ro, 0⟩, ⟨55, 48, .ro, 0⟩, ⟨31, 16, .ro, 0⟩, ⟨15, 0, .ro, 0⟩]
  | 0x108 => r64 [⟨57, 56, .ro, 0⟩, ⟨55, 54, .ro, 0⟩, ⟨53, 52, .ro, 0⟩, ⟨47, 32, .ro, 0⟩, ⟨31, 0, .ro, 0⟩]
  | 0x110 => ro64 0
  | 0x118 => ro64 0
  | 0x120 => r64 [⟨5, 0, .ro, 0⟩]
  | 0x130 => r64 [⟨63, 48, .ro, 0⟩, ⟨47, 32, .ro, 0⟩, ⟨31, 16, .ro, 0⟩, ⟨15, 0, .ro, 0⟩]
  | 0x138 => r64 [⟨15, 0, .ro, 0⟩]
  | 0x140 => r64 [⟨63, 48, .ro, 0⟩, ⟨47, 32, .ro, 0⟩, ⟨31, 0, .ro, 0⟩]
  | 0x148 => r64 [⟨31, 0, .ro, 0⟩]
  | 0xA00 => r64 [⟨63, 63, .ro, 0⟩, ⟨57, 48, .ro, 0⟩, ⟨47, 38, .ro, 0⟩, ⟨37, 34, .ro, 0⟩, ⟨33, 29, .ro, 0⟩]
  | 0xA10 => r64 [⟨63, 60, .ro, 0⟩, ⟨59, 59, .ro, 0⟩, ⟨58, 58, .ro, 0⟩, ⟨57, 57, .ro, 0⟩, ⟨56, 56, .ro, 0⟩,
      ⟨47, 32, .ro, 0⟩, ⟨31, 0, .ro, 0⟩]
  | 0xA20 => r32 [⟨23, 16, .rw, 0x64⟩, ⟨15, 8, .rw, 4⟩, ⟨7, 0, .rw, 2⟩]
  | 0xA28 => r64 [⟨63, 48, .ro, 0⟩, ⟨47, 32, .ro, 0⟩, ⟨31, 16, .ro, 0⟩, ⟨15, 0, .ro, 0⟩]
  | 0xA30 => r32 [⟨31, 31, .ro, 0⟩, ⟨30, 30, .w1c, 0⟩, ⟨29, 29, .w1c, 0⟩, ⟨28, 28, .w1c, 0⟩, ⟨27, 27, .w1c, 0⟩,
      ⟨26, 26, .w1c, 0⟩, ⟨25, 25, .w1c, 0⟩, ⟨24, 24, .w1c, 0⟩, ⟨23, 23, .w1c, 0⟩, ⟨15, 8, .ro, 0⟩, ⟨7, 0, .ro, 0⟩]
  | 0xA38 => r32 [⟨23, 0, .rw, 0⟩]
  | _ =>
    arr off 0x800 4 32 (fun _ => r32 [⟨31, 30, .ro, 0⟩, ⟨20, 16, .ro, 0x1F⟩, ⟨12, 8, .ro, 0⟩, ⟨4, 0, .ro, 0⟩]) fun _ =>
    arr off 0x1000 4 800 (fun _ => r32 [⟨31, 30, .ro, 0⟩, ⟨9, 0, .ro, 0x3FF⟩]) fun _ =>
    arr off 0x2000 4 832 (fun _ => r32 [⟨31, 29, .ro, 0⟩, ⟨24, 16, .ro, 0⟩, ⟨9, 0, .ro, 0x3FF⟩]) fun _ => none

/-- The layout of CHR_CFG and its shadow, whose fields are RW in the shadow only (R278). -/
def chrCfgInfo (a : Acc) : Option RegInfo :=
  r32 [⟨31, 30, a, 0⟩, ⟨29, 28, a, 0⟩, ⟨27, 27, a, 0⟩, ⟨26, 25, a, 0⟩, ⟨24, 21, a, 0⟩, ⟨20, 20, a, 0⟩,
    ⟨15, 0, a, 0x3E8⟩]

def chrLayout (off : Nat) : Option RegInfo :=
  match off with
  | 0x0 => ro64 0
  | 0x8 => r32 [⟨7, 0, .ro, 0⟩]
  | 0x10 => r32 [⟨31, 29, .ro, 0⟩, ⟨28, 28, .ro, 0⟩, ⟨27, 24, .ro, 0⟩, ⟨23, 16, .ro, 0⟩, ⟨15, 0, .ro, 0xFFFF⟩]
  | 0x18 => ro32 0
  | 0x20 => chrCfgInfo .ro
  | 0x28 => ro64 0
  | 0x30 => ro32 0
  | 0x38 => ro32 0
  | 0x40 => chrCfgInfo .rw
  | 0x48 => r64 [⟨63, 0, .rw, 0⟩]
  | 0x50 => r32 [⟨31, 16, .ro, 0x64⟩, ⟨15, 0, .ro, 0x3E8⟩]
  | 0x58 => r32 [⟨31, 16, .rw, 0x64⟩, ⟨15, 0, .rw, 0x3E8⟩]
  | _ => arr off 0x100 8 64 (fun _ => r64 [⟨63, 32, .ro, 0⟩, ⟨31, 0, .ro, 0⟩]) fun _ => none

/-- The reset LINKS mask of port p (R338). -/
def portLinks (v : Variant) (p : Nat) : Nat := if v = .n640 then 0x3 <<< (2 * p) else 0xF <<< (4 * p)

/-- The reset DIR of port p (R338). -/
def portDir (p : Nat) : Nat := match p with | 0 => 4 | 1 => 1 | 2 => 3 | _ => 2

def lnkPortInfo (v : Variant) (a : Acc) (p : Nat) : Option RegInfo :=
  r32 [⟨31, 16, a, portLinks v p⟩, ⟨15, 13, a, portDir p⟩, ⟨12, 11, a, 3⟩, ⟨9, 0, a, 0x64⟩]

def lnkOvrInfo (a : Acc) : Option RegInfo := r64 [⟨63, 63, a, 0⟩, ⟨33, 32, a, 0⟩, ⟨29, 16, a, 0⟩, ⟨13, 0, a, 0⟩]

def lnkTopoInfo (a : Acc) : Option RegInfo := r64 [⟨55, 42, a, 0⟩, ⟨41, 28, a, 0⟩, ⟨27, 14, a, 0⟩, ⟨13, 0, a, 0⟩]

def lnkCwinInfo (a : Acc) (i : Nat) : Option RegInfo :=
  if i % 2 = 0 then r64 [⟨63, 63, a, 0⟩, ⟨41, 32, a, 0⟩, ⟨31, 28, a, 0⟩, ⟨27, 20, a, 0⟩, ⟨15, 0, a, 0⟩]
  else r64 [⟨47, 22, a, 0⟩, ⟨15, 4, a, 0⟩, ⟨3, 0, a, 0⟩]

def lnkLinkLayout (x : Nat) : Option RegInfo :=
  match x with
  | 0x0 => r32 [⟨31, 29, .wo, 0⟩, ⟨11, 8, .rw, 8⟩, ⟨1, 0, .rw, 3⟩]
  | 0x8 => r64 [⟨63, 60, .ro, 0⟩, ⟨59, 58, .ro, 0⟩, ⟨57, 56, .ro, 0⟩, ⟨55, 54, .ro, 0⟩, ⟨53, 53, .w1c, 0⟩,
      ⟨47, 34, .ro, 0⟩, ⟨33, 30, .ro, 0⟩, ⟨29, 28, .ro, 0⟩, ⟨23, 16, .ro, 0⟩, ⟨15, 8, .ro, 0⟩]
  | 0x10 => ro64 0
  | 0x18 => ro32 0
  | 0x1C => ro32 0
  | 0x20 => ro32 0
  | 0x24 => ro32 0
  | _ => none

def lnkLayout (v : Variant) (off : Nat) : Option RegInfo :=
  if off < 0x800 then (if v.link (off / 0x80) then lnkLinkLayout (off % 0x80) else none)
  else if off = 0x1200 then lnkTopoInfo .ro
  else if off = 0x1208 then lnkTopoInfo .rw
  else if off = 0x1F00 ∨ off = 0x1F04 then ro32 0
  else
    arr off 0x1000 0x20 4 (lnkPortInfo v .ro) fun _ =>
    arr off 0x1100 0x20 4 (lnkPortInfo v .rw) fun _ =>
    arr off 0x1300 8 32 (fun _ => lnkOvrInfo .ro) fun _ =>
    arr off 0x1400 8 32 (fun _ => lnkOvrInfo .rw) fun _ =>
    arr off 0x1600 8 64 (lnkCwinInfo .ro) fun _ =>
    arr off 0x1800 8 64 (lnkCwinInfo .rw) fun _ => none

def lfChLayout (x : Nat) : Option RegInfo :=
  match x with
  | 0x0 => r64 [⟨63, 0, .rw, 0⟩]
  | 0x8 => r32 [⟨31, 31, .rw, 0⟩, ⟨30, 28, .ro, 0⟩, ⟨24, 24, .rw, 0⟩, ⟨23, 20, .rw, 0⟩, ⟨4, 4, .w1c, 0⟩, ⟨3, 0, .rw, 4⟩]
  | 0xC => r32 [⟨31, 16, .ro, 0⟩, ⟨15, 0, .ro, 0⟩]
  | 0x10 => r32 [⟨15, 0, .wo, 0⟩]
  | 0x14 => r32 [⟨31, 31, .wo, 0⟩]
  | 0x18 => r64 [⟨63, 48, .rc, 0⟩, ⟨15, 0, .rc, 0⟩]
  | _ => none

def lfGrpInfo (a : Acc) (w : Nat) : Option RegInfo :=
  match w with
  | 0 => r64 [⟨63, 62, a, 0⟩, ⟨61, 58, a, 0⟩, ⟨57, 57, a, 0⟩, ⟨56, 56, a, 0⟩, ⟨55, 42, a, 0⟩, ⟨41, 28, a, 0⟩]
  | 3 => r64 [⟨47, 16, a, 0⟩, ⟨0, 0, a, 0⟩]
  | _ => r64 [⟨51, 32, a, 0⟩, ⟨19, 0, a, 0⟩]

def lfRtInfo (a : Acc) (w : Nat) : Option RegInfo :=
  if w = 0 then r64 [⟨63, 63, a, 0⟩, ⟨29, 16, a, 0⟩, ⟨13, 0, a, 0⟩] else r64 [⟨19, 0, a, 0⟩]

def lfLayout (v : Variant) (off : Nat) : Option RegInfo :=
  if v.lf = false then none
  else if off < 0x400 then lfChLayout (off % 0x40)
  else if off = 0x2800 then r64 [⟨63, 63, .rw, 1⟩, ⟨62, 56, .rw, 0x14⟩, ⟨55, 40, .rw, 0x3E8⟩, ⟨31, 24, .rw, 0x10⟩,
    ⟨23, 16, .rw, 0x40⟩]
  else if off = 0x2808 ∨ off = 0x280C then ro32 0
  else
    arr off 0x1000 8 256 (fun i => lfGrpInfo .ro (i % 4)) fun _ =>
    arr off 0x1800 8 256 (fun i => lfGrpInfo .rw (i % 4)) fun _ =>
    arr off 0x2000 8 64 (fun _ => r64 [⟨63, 61, .ro, 0⟩, ⟨59, 56, .ro, 0⟩, ⟨55, 42, .ro, 0x3FFF⟩, ⟨31, 0, .ro, 0⟩]) fun _ =>
    arr off 0x2400 8 64 (fun i => lfRtInfo .ro (i % 2)) fun _ =>
    arr off 0x2600 8 64 (fun i => lfRtInfo .rw (i % 2)) fun _ => none

def hbmStackLayout (x : Nat) : Option RegInfo :=
  match x with
  | 0x0 => r32 [⟨31, 30, .ro, 0⟩, ⟨0, 0, .ro, 0⟩]
  | 0x8 => r32 [⟨31, 31, .rw, 0⟩, ⟨7, 0, .rw, 0x18⟩]
  | 0x10 => r64 [⟨63, 32, .ro, 0⟩, ⟨31, 0, .ro, 0⟩]
  | 0x18 => r64 [⟨63, 48, .rc, 0⟩, ⟨47, 6, .rc, 0⟩]
  | 0x20 => ro32 0
  | 0x28 => r32 [⟨31, 16, .ro, 0⟩, ⟨15, 0, .ro, 0⟩]
  | 0x30 => r32 [⟨31, 20, .ro, 0⟩, ⟨12, 12, .ro, 0⟩, ⟨11, 0, .ro, 0⟩]
  | _ => none

def hbmLayout (v : Variant) (off : Nat) : Option RegInfo :=
  if off < 0x800 then (if v.stack (off / 0x100) then hbmStackLayout (off % 0x100) else none)
  else if off = 0x1000 then r64 [⟨63, 48, .rw, 0x100⟩, ⟨47, 32, .rw, 0x64⟩, ⟨31, 16, .rw, 0x20⟩, ⟨15, 0, .rw, 0x3E8⟩]
  else arr off 0x2000 4 832 (fun _ => r32 [⟨31, 16, .ro, 0⟩, ⟨15, 0, .ro, 0⟩]) fun _ => none

def mmuLayout (off : Nat) : Option RegInfo :=
  match off % 0x200 with
  | 0x0 => r64 [⟨63, 63, .ro, 0⟩, ⟨61, 60, .ro, 0⟩, ⟨59, 54, .ro, 0⟩, ⟨53, 44, .ro, 0⟩, ⟨31, 0, .ro, 0⟩]
  | 0x8 => r32 [⟨15, 0, .ro, 0⟩]
  | 0x10 => ro64 0
  | 0x18 => r64 [⟨47, 13, .ro, 0⟩]
  | 0x20 => r64 [⟨63, 48, .rc, 0⟩, ⟨47, 21, .rc, 0⟩, ⟨20, 18, .rc, 0⟩]
  | 0x28 => ro32 0
  | x => arr x 0x40 8 16 (fun i => if i % 2 = 0 then r64 [⟨63, 63, .ro, 0⟩, ⟨47, 21, .ro, 0⟩]
      else r64 [⟨47, 21, .ro, 0⟩]) fun _ => none

/-- The layout of a power limit register, live or shadow (R475). -/
def pwrLimitInfo (a : Acc) (x : Nat) : Option RegInfo :=
  match x with
  | 0x0 => r32 [⟨31, 16, a, 0x3E8⟩, ⟨7, 0, a, 0xA⟩]
  | 0x8 => r64 [⟨47, 32, a, 0x1F4⟩, ⟨31, 16, a, 0x32⟩, ⟨15, 0, a, 0xFA⟩]
  | 0x10 => r64 [⟨47, 32, a, 0x1F4⟩, ⟨31, 16, a, 0x32⟩, ⟨15, 0, a, 0xFA⟩]
  | 0x18 => r32 [⟨31, 24, a, 0x5F⟩, ⟨23, 16, a, 0x69⟩, ⟨15, 8, a, 0x55⟩, ⟨7, 0, a, 0x2D⟩]
  | 0x20 => r32 [⟨31, 16, a, 0xF0⟩, ⟨15, 8, a, 0x32⟩, ⟨7, 0, a, 0xA⟩]
  | _ => none

/-- Whether a domain id is defined: positions 0 to 831, stacks and links above them (R455). -/
def pwrDomains : Nat := 0x360

def pwrLayout (off : Nat) : Option RegInfo :=
  match off with
  | 0x0 => r64 [⟨63, 48, .ro, 0⟩, ⟨47, 32, .ro, 0⟩]
  | 0x10 => r64 [⟨63, 48, .ro, 0⟩, ⟨47, 40, .ro, 0⟩, ⟨39, 32, .ro, 0⟩, ⟨31, 24, .ro, 0⟩, ⟨0, 0, .ro, 0⟩]
  | 0x20 => r32 [⟨31, 16, .ro, 0x320⟩, ⟨15, 0, .ro, 0x28A⟩]
  | 0x28 => r32 [⟨31, 16, .ro, 0x320⟩, ⟨15, 0, .ro, 0x28A⟩]
  | 0x30 => r32 [⟨31, 31, .ro, 0⟩, ⟨8, 0, .ro, 0⟩]
  | 0x40 => r32 [⟨7, 0, .rw, 0x2D⟩]
  | 0x100 => r64 [⟨63, 60, .wo, 0⟩, ⟨59, 56, .wo, 0⟩, ⟨41, 32, .wo, 0⟩, ⟨9, 0, .wo, 0⟩]
  | 0x108 => r64 [⟨63, 48, .ro, 0⟩, ⟨47, 47, .ro, 0⟩, ⟨43, 40, .ro, 0⟩, ⟨39, 30, .ro, 0⟩, ⟨29, 20, .ro, 0⟩, ⟨19, 10, .ro, 0⟩]
  | _ =>
    if 0x400 ≤ off ∧ off < 0x428 then pwrLimitInfo .ro (off - 0x400)
    else if 0x500 ≤ off ∧ off < 0x528 then pwrLimitInfo .rw (off - 0x500)
    else
      arr off 0x1000 4 pwrDomains (fun _ => r32 [⟨31, 28, .ro, 0⟩, ⟨15, 0, .ro, 0⟩]) fun _ =>
      arr off 0x2000 4 pwrDomains (fun _ => r32 [⟨31, 28, .ro, 0⟩, ⟨27, 24, .ro, 0⟩, ⟨15, 0, .ro, 0⟩]) fun _ => none

def fwLayout (off : Nat) : Option RegInfo :=
  if off = 0x800 then r64 [⟨63, 60, .ro, 0⟩, ⟨59, 57, .ro, 0⟩, ⟨56, 54, .ro, 0⟩, ⟨53, 53, .ro, 0⟩, ⟨47, 32, .ro, 0⟩,
    ⟨31, 0, .ro, 0⟩]
  else
    arr off 0x0 8 35 (fun _ => r64 [⟨63, 61, .ro, 0⟩, ⟨47, 32, .ro, 0⟩, ⟨31, 16, .ro, 0⟩]) fun _ =>
    arr off 0x400 4 35 (fun _ => r32 [⟨31, 31, .rw, 1⟩, ⟨15, 0, .rw, 0x64⟩]) fun _ =>
    arr off 0x600 4 35 (fun _ => r32 [⟨31, 0, .wo, 0⟩]) fun _ => none

def feChipLayout (off : Nat) : Option RegInfo :=
  if off = 0x80 then r32 [⟨31, 16, .rw, 0x3E8⟩, ⟨15, 8, .rw, 0x14⟩, ⟨7, 0, .rw, 4⟩]
  else
    arr off 0x0 4 16 (fun _ => r32 [⟨7, 0, .ro, 0⟩]) fun _ =>
    arr off 0x40 4 16 (fun _ => r32 [⟨7, 0, .rw, 0⟩]) fun _ => none

def feRingLayout (x : Nat) : Option RegInfo :=
  match x with
  | 0x0 => r64 [⟨63, 0, .rw, 0⟩]
  | 0x8 => r64 [⟨63, 0, .rw, 0⟩]
  | 0x10 => r32 [⟨31, 31, .rw, 0⟩, ⟨30, 30, .rw, 0⟩, ⟨27, 24, .ro, 0⟩, ⟨21, 20, .ro, 0⟩, ⟨19, 16, .ro, 0⟩, ⟨12, 8, .rw, 4⟩,
      ⟨4, 0, .rw, 4⟩]
  | 0x14 => r32 [⟨31, 29, .ro, 0⟩, ⟨2, 2, .ro, 0⟩, ⟨1, 1, .w1c, 0⟩, ⟨0, 0, .w1c, 0⟩]
  | 0x18 => r32 [⟨15, 0, .ro, 0⟩]
  | 0x1C => r32 [⟨16, 16, .ro, 1⟩, ⟨15, 0, .ro, 0⟩]
  | _ => none

def feQueueLayout (x : Nat) : Option RegInfo :=
  match x with
  | 0x0 => r64 [⟨63, 0, .rw, 0⟩]
  | 0x8 => r32 [⟨31, 31, .rw, 0⟩, ⟨30, 30, .rw, 0⟩, ⟨29, 29, .w1c, 0⟩, ⟨3, 0, .rw, 4⟩]
  | 0xC => r32 [⟨31, 16, .ro, 0⟩, ⟨15, 0, .ro, 0⟩]
  | _ => none

def feLayout (off : Nat) : Option RegInfo :=
  if off < 0x200 then feRingLayout (off % 0x40)
  else if 0x1000 ≤ off then feQueueLayout (off % 0x10)
  else match off with
    | 0x200 => r64 [⟨63, 0, .rw, 0⟩]
    | 0x208 => r32 [⟨3, 0, .rw, 0⟩]
    | 0x210 => r64 [⟨63, 0, .rw, 0⟩]
    | 0x218 => r32 [⟨3, 0, .rw, 0⟩]
    | 0x21C => r32 [⟨31, 16, .rw, 0⟩, ⟨15, 0, .ro, 0⟩]
    | 0x220 => ro32 0
    | _ => none

def mbxLayout (off : Nat) : Option RegInfo :=
  match off with
  | 0x0 => r64 [⟨63, 0, .wo, 0⟩]
  | 0x8 => r32 [⟨31, 31, .rc, 0⟩, ⟨28, 24, .rc, 0⟩, ⟨23, 16, .rc, 0⟩, ⟨15, 0, .rc, 0⟩]
  | 0xC => r32 [⟨31, 31, .ro, 0⟩, ⟨5, 3, .ro, 0⟩, ⟨2, 2, .w1c, 0⟩, ⟨1, 1, .w1c, 0⟩, ⟨0, 0, .w1c, 0⟩]
  | 0x10 => r32 [⟨4, 0, .rw, 0⟩]
  | 0x14 => r32 [⟨4, 0, .ro, 0⟩]
  | 0x18 => ro32 0
  | _ => none

def maLayout (off : Nat) : Option RegInfo :=
  match off with
  | 0x0 => r32 [⟨31, 31, .rw, 0⟩, ⟨23, 16, .rw, 0⟩, ⟨7, 0, .rw, 0⟩]
  | 0x4 => r32 [⟨12, 8, .rw, 0x10⟩, ⟨7, 0, .rw, 0⟩]
  | 0x8 => r32 [⟨20, 16, .ro, 0x10⟩, ⟨6, 0, .ro, 0x60⟩]
  | 0x20 => ro64 0
  | 0x28 => ro64 0
  | _ =>
    arr off 0x10 4 4 (fun c => r32 [⟨26, 16, .rw, if c = 0 then 0x400 else 0⟩, ⟨9, 0, .rw, 0⟩]) fun _ =>
    arr off 0x30 4 4 (fun _ => r32 [⟨3, 3, .w1c, 0⟩, ⟨2, 2, .w1c, 0⟩, ⟨1, 1, .w1c, 0⟩, ⟨0, 0, .w1c, 0⟩]) fun _ => none

def veLayout (off : Nat) : Option RegInfo :=
  if off = 0x40 then ro64 0
  else
    arr off 0x0 4 4 (fun c => r32 [⟨7, 0, .rw, if c = 0 then 0xFF else 0⟩]) fun _ =>
    arr off 0x20 4 4 (fun _ => r32 [⟨6, 6, .w1c, 0⟩, ⟨5, 5, .w1c, 0⟩, ⟨4, 4, .w1c, 0⟩, ⟨3, 3, .w1c, 0⟩, ⟨2, 2, .w1c, 0⟩,
      ⟨1, 1, .w1c, 0⟩, ⟨0, 0, .w1c, 0⟩]) fun _ => none

def seqLayout (off : Nat) : Option RegInfo :=
  if off = 0x40 ∨ off = 0x48 then ro64 0
  else
    arr off 0x0 4 4 (fun _ => r32 [⟨8, 8, .w1c, 0⟩, ⟨2, 0, .ro, 0⟩]) fun _ =>
    arr off 0x10 4 4 (fun _ => r32 [⟨21, 0, .ro, 0⟩]) fun _ =>
    arr off 0x20 4 4 (fun _ => ro32 0) fun _ => none

def spLayout (off : Nat) : Option RegInfo :=
  match off with
  | 0x220 => r32 [⟨31, 16, .rw, 0xC350⟩, ⟨15, 0, .rw, 0x3E8⟩]
  | 0x230 => ro32 0
  | 0x238 => r64 [⟨63, 48, .rc, 0⟩, ⟨21, 0, .rc, 0⟩]
  | 0x240 => ro32 0
  | 0x340 => r32 [⟨31, 24, .rw, 0xC8⟩, ⟨23, 16, .rw, 0x64⟩, ⟨15, 0, .rw, 0x2710⟩]
  | 0x3A0 => ro32 0
  | _ =>
    arr off 0x100 4 48 (fun _ => r32 [⟨7, 7, .rw, 1⟩, ⟨4, 3, .rw, 0⟩, ⟨0, 0, .rw, 0⟩]) fun _ =>
    arr off 0x200 4 4 (fun _ => r32 [⟨31, 30, .wo, 0⟩, ⟨19, 10, .wo, 0⟩, ⟨9, 0, .wo, 0⟩]) fun _ =>
    arr off 0x210 4 4 (fun _ => r32 [⟨29, 20, .ro, 0⟩, ⟨19, 10, .ro, 0⟩, ⟨9, 0, .ro, 0⟩]) fun _ =>
    arr off 0x300 4 4 (fun _ => r32 [⟨31, 31, .rw, 0⟩, ⟨30, 27, .rw, 0⟩, ⟨26, 23, .rw, 0⟩, ⟨21, 0, .rw, 0⟩]) fun _ =>
    arr off 0x310 4 4 (fun _ => r32 [⟨31, 31, .wo, 0⟩]) fun _ =>
    arr off 0x320 4 4 (fun _ => r32 [⟨14, 8, .ro, 0⟩, ⟨6, 0, .ro, 0⟩]) fun _ =>
    arr off 0x360 8 4 (fun _ => r64 [⟨63, 48, .rc, 0⟩, ⟨47, 40, .rc, 0⟩, ⟨31, 0, .ro, 0⟩]) fun _ =>
    arr off 0x380 8 4 (fun _ => r64 [⟨63, 48, .rc, 0⟩, ⟨19, 16, .rc, 0⟩, ⟨15, 0, .rc, 0⟩]) fun _ => none

def flgLayout (off : Nat) : Option RegInfo :=
  match off with
  | 0x10 => ro32 0
  | 0x40 => r64 [⟨63, 0, .wo, 0⟩]
  | 0x48 => r64 [⟨63, 0, .wo, 0⟩]
  | _ =>
    arr off 0x0 4 4 (fun c => r32 [⟨13, 8, .rw, if c = 0 then 0x3F else 0⟩, ⟨5, 0, .rw, if c = 0 then 1 else 0⟩]) fun _ =>
    arr off 0x80 8 4 (fun _ => r64 [⟨63, 63, .ro, 0⟩, ⟨62, 62, .ro, 0⟩, ⟨61, 60, .ro, 0⟩, ⟨59, 48, .ro, 0⟩, ⟨47, 36, .ro, 0⟩,
      ⟨35, 24, .ro, 0⟩, ⟨23, 12, .ro, 0⟩]) fun _ =>
    arr off 0xC0 4 4 (fun _ => ro32 0) fun _ =>
    arr off 0x100 8 64 (fun _ => ro64 0) fun _ => none

/-- The blocks of R529. -/
inductive Block where
  | top | chr | lnk | lf | hbm | mmu | pwr | sec | fw | feChip
  | fe (f : Nat) | mbx (f : Nat)
  | seq (k : Nat) | ma (k : Nat) | ve (k : Nat) | sp (k : Nat) | flg (k : Nat)
  deriving DecidableEq, Repr

/-- The block an address lies in and its offset there; `none` outside every span (R529, R531). -/
def blockOf (a : Nat) : Option (Block × Nat) :=
  if a < R.topBase then none
  else
    let o := a - R.topBase
    if o < 0x1_0000 then some (.top, o)
    else if o < 0x1_1000 then some (.chr, o - 0x1_0000)
    else if 0x2_0000 ≤ o ∧ o < 0x2_2000 then some (.lnk, o - 0x2_0000)
    else if 0x3_0000 ≤ o ∧ o < 0x3_4000 then some (.lf, o - 0x3_0000)
    else if 0x4_0000 ≤ o ∧ o < 0x4_4000 then some (.hbm, o - 0x4_0000)
    else if 0x5_0000 ≤ o ∧ o < 0x5_2000 then some (.mmu, o - 0x5_0000)
    else if 0x6_0000 ≤ o ∧ o < 0x6_4000 then some (.pwr, o - 0x6_0000)
    else if 0x7_0000 ≤ o ∧ o < 0x8_0000 then some (.sec, o - 0x7_0000)
    else if 0x8_0000 ≤ o ∧ o < 0x8_1000 then some (.fw, o - 0x8_0000)
    else if 0x10_0000 ≤ o ∧ o < 0x10_2000 then some (.feChip, o - 0x10_0000)
    else if 0x10_2000 ≤ o ∧ o < 0x18_2000 then some (.fe ((o - 0x10_2000) / 0x2000), (o - 0x10_2000) % 0x2000)
    else if 0x20_0000 ≤ o ∧ o < 0x24_0000 then some (.mbx ((o - 0x20_0000) / 0x1000), (o - 0x20_0000) % 0x1000)
    else if 0x1000_0000 ≤ o ∧ o < 0x1000_0000 + 0x2000 * 800 then
      let k := (o - 0x1000_0000) / 0x2000
      let x := (o - 0x1000_0000) % 0x2000
      if x < 0x400 then some (.seq k, x)
      else if x < 0x800 then some (.ma k, x - 0x400)
      else if x < 0xC00 then some (.ve k, x - 0x800)
      else if x < 0x1000 then some (.sp k, x - 0xC00)
      else if x < 0x1400 then some (.flg k, x - 0x1000)
      else none
    else none

/-- The layout of the register that starts at an address. -/
def regInfo (v : Variant) (a : Nat) : Option RegInfo :=
  match blockOf a with
  | none => none
  | some (b, o) =>
    match b with
    | .top => topLayout o
    | .chr => chrLayout o
    | .lnk => lnkLayout v o
    | .lf => lfLayout v o
    | .hbm => hbmLayout v o
    | .mmu => mmuLayout o
    | .pwr => pwrLayout o
    | .sec => none
    | .fw => fwLayout o
    | .feChip => feChipLayout o
    | .fe _ => feLayout o
    | .mbx _ => mbxLayout o
    | .seq _ => seqLayout o
    | .ma _ => maLayout o
    | .ve _ => veLayout o
    | .sp _ => spLayout o
    | .flg _ => flgLayout o

/-- A register's reset value, its fields' values put together. -/
def RegInfo.reset (r : RegInfo) : Nat := r.fields.foldl (fun x f => x ||| (f.reset <<< f.lo)) 0

/-- The bits a register's fields cover; the rest are reserved (R15). -/
def RegInfo.mask (r : RegInfo) : Nat := r.fields.foldl (fun x f => x ||| fieldMask f.hi f.lo) 0

/-- The bits whose fields have the access code given. -/
def RegInfo.accMask (r : RegInfo) (a : Acc) : Nat :=
  r.fields.foldl (fun x f => if f.acc = a then x ||| fieldMask f.hi f.lo else x) 0

/-- What an address of the register file holds after reset. -/
def regReset (v : Variant) (a : Nat) : Word64 :=
  match regInfo v a with
  | some r => BitVec.ofNat 64 r.reset
  | none => 0#64

end Sys2Proof.Machine
end

