-- ==== Sys2Proof/Machine/FwState.lean ====
section
/-!
DEFINITION. What firmware and the mailboxes hold beside their registers (chapter 16). Plain data only.
-/

namespace Sys2Proof.Machine

/-- An outstanding command (R433 journal, R445) with the argument bytes that the take read (R435). -/
structure Journal where
  func : Nat
  slot : Nat
  tag  : Nat
  code : Nat
  acc  : Bool                  -- accepted
  done : Bool                  -- completed, its COMMAND_DONE notice not yet in the ring
  args : List Byte
  deriving DecidableEq, Repr

/-- A notice as firmware creates it (R442), without its slot: `cmd` marks a COMMAND_DONE of that message slot. -/
structure Notice where
  ty     : Nat
  status : Status
  seq    : Nat
  time   : Nat
  body   : List Byte
  cmd    : Option Nat
  deriving DecidableEq, Repr

/-- A function's mailbox, acknowledge FIFO and notice ring (R437 to R445). `page` holds the bytes of page offsets
0x400 to 0xFFF. -/
structure FnState where
  page     : Sparse Byte
  posts    : List Word64       -- at most four
  acks     : List (BitVec 32)  -- at most sixteen
  seq      : Nat
  held     : List Notice       -- held notices in order posted
  lost     : Nat               -- discarded since the last NOTICE_LOST notice
  aer      : Bool              -- Advisory Non-Fatal Error logged (R439)
  msixMask : Nat               -- masked MSI-X vectors
  msixPend : Nat               -- vectors that wait for their mask to be lifted
  msixTab  : Sparse Byte       -- addresses and data of the MSI-X table (R401)
  deriving DecidableEq, Repr

/-- The crash dump (R451, R452): its header fields and the bytes after the header that the model knows. -/
structure Dump where
  kind     : Nat
  cause    : Nat
  read     : Bool
  prevLost : Bool
  time     : Nat
  len      : Nat
  trunc    : Bool
  logSeq   : Nat
  fwid     : List Byte
  logs     : List LogRec       -- the copy of the log ring, oldest first
  deriving DecidableEq, Repr

/-- The records written for one (processor, code) pair in one second (R448). -/
structure LogCount where
  proc  : Nat
  code  : Nat
  sec   : Nat
  count : Nat
  supp  : Nat
  deriving DecidableEq, Repr

/-- A protection region of a processor (R431): its base, its size as a power of two, and its permissions. -/
structure Prot where
  base : Nat
  log  : Nat
  rd   : Bool
  wr   : Bool
  ex   : Bool
  deriving DecidableEq, Repr

/-- How a read that a function's host issued ended (R400 to R402): its bytes, or Unsupported Request or Completer
Abort. -/
inductive HostCpl where
  | ur
  | ca
  | data (b : List Byte)
  | poisoned (n : Nat)         -- the EP bit set, every byte 0xFF (R187)
  deriving DecidableEq, Repr

/-- Firmware beside its registers. -/
structure FwState where
  fns      : Sparse FnState    -- by function
  numVfs   : Nat               -- virtual functions enabled (R400)
  log      : List LogRec       -- newest first, at most 16,384
  logSeq   : Nat               -- SEQ of the last record
  counts   : List LogCount
  traces   : Sparse Bool       -- enabled trace points (R449)
  dump     : Dump
  journal  : List Journal
  mboxes   : Sparse (List (List Byte))  -- internal mailboxes, depth 8 (R436)
  kicked   : Sparse Nat        -- when each watchdog last restarted, elapsed ns
  expiries : Sparse (List Nat) -- recent expiries of each processor
  regions  : Sparse (List Nat) -- recent region faults, by 256 * processor + component (R432)
  prot     : Sparse (List Prot) -- the regions of each processor, at most sixteen (R431)
  turn     : Nat               -- the function whose notice was taken last (R440)
  restart  : Sparse Nat        -- when each restarting processor began, elapsed ns
  irqs     : List Bucket       -- bucket overflow interrupts raised and not yet taken (R388)
  spdm     : Nat               -- SPDM requests answered (R446)
  certs    : Nat               -- reissues of certificate slot 1 (R446)
  bus      : Sparse Status     -- what the last internal mailbox post of each processor returned (R436)
  errAt    : Nat               -- when TOP_REG_ERR took its capture, elapsed ns (R535)
  spdmOut  : List (List Byte)  -- header bytes of the SPDM answers, newest first (R446)
  ans      : List TByte        -- what a processor's last access through a physical-core window returned (R40)
  ansSt    : Status            -- and how it ended
  deriving DecidableEq, Repr

/-- A function's firmware state after reset. -/
def FnState.reset : FnState := ⟨[], [], [], 0, [], 0, false, 0xFFFF, 0, []⟩

/-- No crash dump. -/
def Dump.reset : Dump := ⟨0, 0, false, false, 0, 0, false, 0, [], []⟩

/-- Firmware after reset. -/
def FwState.reset : FwState :=
  ⟨[], 0, [], 0, [], [], Dump.reset, [], [], [], [], [], [], 63, [], [], 0, 0, [], 0, [], [], 0⟩

end Sys2Proof.Machine
end

