-- ==== Sys2Proof/Machine/SysState.lean ====
section
/-!
DEFINITION. What the I/O die holds beside its registers: link controllers and ports (chapter 12), bridges (R20), the flash
records, the boot, the shed and retirement (chapter 18), power (17) and package (19). Plain data only.
-/

namespace Sys2Proof.Machine

/-! ## Links (R321 to R329) -/

/-- A link controller beside its registers. `phase` is 0 outside training, then 1 HELLO, 2 RATE, 3 EQUALIZE, 4 ALIGN,
5 VERIFY (R321), and 6 in the wait after a failed attempt (R323); times are elapsed ns. -/
structure LinkRec where
  phase    : Nat
  since    : Nat                     -- entry to the phase
  silence  : Option Nat              -- start of the running silence timer (R322)
  retryAt  : Nat                     -- end of the wait of R323
  resume   : Bool                    -- training with kept settings after a wake (R329)
  unacked  : List (Nat × Option NetPkt)   -- the replay buffer: port sequence number and flit's packet (R324)
  replays  : Nat                     -- replays of the first unacknowledged flit (R325)
  draining : Bool                    -- SLEEP accepted, waiting for acknowledgements (R327)
  pass     : Nat                     -- lanes that take part in this training: offered by both ends, none failed (R321)
  proposed : Bool                    -- a lane-drop set was sent and the partner's has not come (R326)
  dropped  : Nat                     -- lanes dropped under R326
  degraded : Bool                    -- capability state DEGRADED (R326)
  untested : Bool                    -- failed the checker self-test (R398)
  deriving DecidableEq, Repr

/-- A port beside its registers. -/
structure PortRec where
  wait   : List (NetPkt × Nat)       -- packets that wait for an UP link, and since when (R319)
  again  : List ((Nat × Option NetPkt) × Nat)   -- flits of links that went down, waiting for another (R325)
  served : Sparse Nat                -- bytes sent of each input that waits: 0 local, 1 + p transit from port p (R318)
  inq    : List NetPkt               -- packets that arrived and were not yet routed (R324)
  tx     : Nat                       -- next port sequence number to send
  rx     : Nat                       -- next port sequence number to deliver
  mapped : Sparse Nat                -- writes mapped since the last group end, by window (R332)
  deriving DecidableEq, Repr

/-- What a link or port sends beside flits. -/
inductive LnkOut where
  | pattern (l : Nat)
  | hello (l chip link gen lanes : Nat)
  | flit (l seq : Nat) (pkt : Option NetPkt)
  | downReport (l : Nat)
  | ack (l seq : Nat)
  | nak (l seq : Nat)
  | sleepSet (l : Nat)
  | wakePattern (l : Nat)
  | laneDrop (l kept : Nat)
  | olderWrite (p addr : Nat) (data : List TByte) (last : Bool)
  | olderFence (p : Nat)
  | olderAck (p : Nat) (ok : Bool)
  | olderCtl (p kind : Nat) (words : List Nat)
  deriving DecidableEq, Repr

/-! ## Leapfrog engine (R343 to R366) -/

/-- An open window of a receive half (R353): the run of destination bytes, how many of them have landed, and for a
scratchpad destination the core and grant. -/
structure LfWin where
  base   : Nat
  len    : Nat
  landed : Nat
  core   : Option Nat
  tag    : Nat
  gen    : BitVec 4
  deriving DecidableEq, Repr

/-- A half of a running descriptor (R349, R356): to or from the member at `rank`, chip `chip`, by `route`. `moved` bytes have
been performed, `data` of them received; `since` is when it last made progress; `buf` holds a bucket to send, or, for a half
that takes what is on this chip (`here`: RECV = LOCAL, the own bucket, padding), what is to be written. -/
structure LfHalf where
  send   : Bool
  next   : Bool
  rank   : Nat
  chip   : Nat
  gen    : Nat
  total  : Nat
  known  : Bool
  moved  : Nat
  opened : Nat
  wins   : List LfWin
  closed : Option Nat
  since  : Nat
  fin    : Bool
  buf    : List TByte
  route  : List (Fin 4)
  here   : Bool
  data   : Nat
  deriving DecidableEq, Repr

/-- The descriptor at work in a channel (R345, R363): as fetched, its group and latched entry, the ranges it translated
with their virtual addresses, its halves, and its result so far. -/
structure LfRun where
  idx     : Nat
  raw     : List Byte
  part    : Nat
  started : Bool
  group   : Nat
  epoch   : Nat
  opseq   : Nat
  entry   : List Word64
  vas     : List (Nat × Nat)
  src     : List (Nat × Nat)
  dst     : List (Nat × Nat)
  aux     : List (Nat × Nat)
  cnts    : List (Nat × Nat)
  halves  : List LfHalf
  status  : Status
  ind     : Nat
  dropped : Nat
  sent    : List (Nat × Nat)   -- per rank: elements sent, elements dropped beyond CAP (R357)
  deriving DecidableEq, Repr

/-- A re-form to come (R366): the failed rank, the instant, and the background entry. -/
structure LfPend where
  frank : Nat
  inst  : Nat
  words : List Word64
  deriving DecidableEq, Repr

/-- The Leapfrog engine beside its registers. -/
structure LfState where
  runs    : Sparse (Option LfRun)   -- by channel
  beats   : Sparse Nat              -- last heartbeat, elapsed ns, by 2*group + (1 from NEXT)
  reforms : Sparse (Option LfPend)  -- by group
  deriving DecidableEq, Repr

/-! ## Power (R455 to R476, R512, R513) -/

/-- A request under PWR_SLEEP_REQ: `next` counts the members checked, `started` lists the domains whose entry or exit it
has started, `refused` the reason and the refuser (R460, R461, R464). -/
structure SleepReq where
  target  : Nat
  wakeen  : Nat
  first   : Nat
  count   : Nat
  next    : Nat
  since   : Nat
  started : List Nat
  refused : Option (Nat × Nat)
  deriving DecidableEq, Repr

/-- A power domain beside its register: when its entry or exit began, the state it enters or exits, and whether a wake
event waits for the end of its entry. -/
structure DomRec where
  since  : Nat
  target : Nat
  wake   : Bool
  deriving DecidableEq, Repr

/-- What the power core keeps of a compute die: when its last CCLK change began, the rate it changes to and the LMAX that
its slots return to, the last readings, the times of R468, the ceiling of 8 of R468, and what R512 and R513 say of its rail. -/
structure DieRec where
  changed : Option Nat
  relock  : Option Nat
  lmax    : List Nat
  tj      : Nat
  amps    : Nat
  cool    : Option Nat
  low     : Option Nat
  stepped : Option Nat
  hot     : Bool
  railOut : Option Nat
  avs     : Nat
  phase   : Nat       -- of a change (R465): 0 none, 1 the rail rises, 2 LMAX falls, 3 the PLL relocks, 4 LMAX rises
  due     : Nat       -- elapsed ns at which the phase's next step is due; in phase 3, at which the relock began
  deriving DecidableEq, Repr

/-- The power core and the power controller beside their registers; `slots` counts eighths of a stack's request slots
withheld, with the time of the last step. -/
structure PwrState where
  req   : Option SleepReq
  doms  : Sparse DomRec
  dies  : Sparse DieRec
  slots : Sparse (Nat × Nat)
  tinAt : Nat
  low   : Option Nat
  fixed : Bool
  deriving DecidableEq, Repr

/-! ## Flash, boot, shed, retirement (R477 to R500) -/

/-- A shed in progress beside FW_SHED_STAT (R486 to R492): the command it belongs to, the image downloaded, whether the
checked copy stands in HBM, and the confirmation timer. -/
structure ShedRec where
  host  : Nat
  len   : Nat
  slot  : Option Nat
  tag   : Nat
  tmo   : Nat
  since : Nat
  copy  : Bool
  deriving DecidableEq, Repr

/-- The flash and the boot (R477 to R485): `known` says that the records are those firmware last read or wrote; `bytes`
are the bytes that the sideband put there; `svn` is the fused anti-rollback counter. `warm` holds the case of R309 (0 for
none) of a warm reset that has begun and whose boot is to come, and `lost` the function whose pending commit it discarded. -/
structure BootState where
  known    : Bool
  slotRec  : TwoCopies SlotRec
  setRec   : TwoCopies Settings
  invRec   : TwoCopies (List InvPos)
  bytes    : Sparse (Option Byte)
  svn      : Nat
  warm     : Option Nat
  lost     : Option Nat
  filled   : List (Nat × Nat)   -- ranges that completed FILLs have covered since power-on (R480)
  deriving DecidableEq, Repr

/-- The slot record as a reader finds it. -/
def BootState.slots (b : BootState) : Option SlotRec := b.slotRec.read

/-- The settings block as a reader finds it. -/
def BootState.settings (b : BootState) : Option Settings := b.setRec.read

/-- The inventory record as a reader finds it. -/
def BootState.inv (b : BootState) : Option (List InvPos) := b.invRec.read

/-- A position that is RETIRING (R495): since when, whether its warden has performed step 1 of R496, and when the wait of R497
began, in elapsed ns. -/
structure Retire where
  pos   : Nat
  since : Nat
  begun : Bool
  wait  : Option Nat
  deriving DecidableEq, Repr

/-! ## Package (R515 to R527) -/

/-- The result of the last sideband command (R522); `waits` while a PWR_COMMIT's commit is pending. -/
structure SbState where
  status : Status
  code   : Nat
  data   : List Byte
  waits  : Bool
  out    : List Byte       -- what the last Block Read of code 0x11 returned
  addr   : Nat             -- the sideband's address, 0 before RESET_N is released (R517)
  deriving DecidableEq, Repr

/-- The I/O die. -/
structure SysState where
  links    : Sparse LinkRec
  ports    : Sparse PortRec
  lnkOut   : List LnkOut
  bridges  : Sparse Nat              -- consecutive failed replays, by bridge (R20)
  deadBr   : List Nat                -- bridges that declared themselves failed
  lf       : LfState
  pwr      : PwrState
  boot     : BootState
  shed     : ShedRec
  retire   : List Retire             -- in the order they became so (R495)
  qos      : Sparse (Nat × Bool)     -- QOS notices by 4*partition+resource: time of the last, and whether it still holds (R424)
  sb       : SbState
  tap      : Tap
  peUp     : Bool                    -- the PCIe link is up
  tapReset : Bool                    -- RESET_N is asserted (R525)
  creditAt : Sparse Nat              -- when a core's occupancy credit was last brought up to date (R84)
  deriving DecidableEq, Repr

/-- A link controller after reset. -/
def LinkRec.reset : LinkRec := ⟨0, 0, none, 0, false, [], 0, false, 0, false, 0, false, false⟩

/-- A port after reset. -/
def PortRec.reset : PortRec := ⟨[], [], [], [], 0, 0, []⟩

/-- The I/O die after reset. -/
def SysState.reset : SysState :=
  { links := [], ports := [], lnkOut := [], bridges := [], deadBr := [], lf := ⟨[], [], []⟩,
    pwr := ⟨none, [], [], [], 0, none, false⟩,
    boot := ⟨false, ⟨none, none⟩, ⟨none, none⟩, ⟨none, none⟩, [], 0, none, none, []⟩,
    shed := ⟨0, 0, none, 0, 0, 0, false⟩, retire := [], qos := [], sb := ⟨0, 0, [], false, [], 0⟩, tap := .idcode,
    peUp := true, tapReset := false, creditAt := [] }

/-- A power domain with nothing under way. -/
def DomRec.reset : DomRec := ⟨0, 0, false⟩

/-- A die as the power core first finds it. -/
def DieRec.reset : DieRec := ⟨none, none, [], 0, 0, none, none, none, false, none, 0, 0, 0⟩

end Sys2Proof.Machine
end

