-- ==== Sys2Proof/Machine/State.lean ====
section
/-!
DEFINITION. The state of the machine, its reset, and the reasons a command stops.
-/

namespace Sys2Proof.Machine

/-- Why the machine stops with a fault. Status codes of the manual are not among these: they are state, because the
machine goes on after them. -/
inductive Fault where
  /-- A command that no part of the MX3 could meet. No meaning raises it: every meaning answers a next state on all its
  operands. Safe: nothing on the part corresponds to it. -/
  | illFormed
  deriving DecidableEq, Repr

/-- Why a command has no meaning. -/
inductive Refusal where
  /-- The command of this mnemonic is not modelled. Raised by the dispatcher alone. Safe: nothing is claimed of it. -/
  | notModelled (mnemonic : String)
  deriving DecidableEq, Repr

/-- The machine. -/
structure State where
  variant : Variant              -- fixed by fuses (R2, R7)
  pending : List Instr           -- commands waiting, first in first out
  chorus  : Chorus               -- the Chorus master (R253)
  ns      : Nat                  -- nanoseconds elapsed, for deadlines that no step of Chorus moves
  free    : Nat                  -- the model's own: counts the free values taken
  regs    : Sparse Word64        -- every register, by chip-local address (R529)
  cores   : Sparse CoreState     -- by logical core
  posns   : Sparse PosState      -- by physical position
  hbm     : HbmState
  fe      : FeState
  chr     : ChrState
  fw      : FwState
  sys     : SysState
  lfTlb   : List TlbEntry        -- the Leapfrog engine's TLB (R415)
  net     : List Packet          -- packets on the on-chip network (R28)
  hostOut : List (Nat × Nat × List Byte)   -- posted writes to host memory: function, PCIe address, bytes
  cpls    : List (Nat × HostCpl) -- completions of host reads: function, completion
  msix    : List (Nat × Nat)     -- MSI-X vectors raised: function, vector (R293, R444)
  diag    : List Agent           -- agents in diagnostic mode (R36)
  deriving DecidableEq, Repr

/-- The machine right after power-on reset: every register at its reset value, every memory empty. No agent is in diagnostic
mode, and no command places one there: DESIGN CHOICE, log entry 87. -/
def State.reset : State :=
  { variant := .a800, pending := [], chorus := 0, ns := 0, free := 0, regs := [], cores := [], posns := [],
    hbm := HbmState.reset, fe := FeState.reset, chr := ChrState.reset, fw := FwState.reset, sys := SysState.reset,
    lfTlb := [], net := [], hostOut := [], cpls := [], msix := [], diag := [] }

end Sys2Proof.Machine
end

