-- ==== Sys2Proof/Machine/Ops.lean ====
section
/-!
DEFINITION. The named operations over registers, cores, contexts and positions that every meaning is written in, and the
outputs firmware makes for everyone: log records, notices and interrupts (R442 to R448).
-/

namespace Sys2Proof.Machine

/-! ## Parts of the state -/

/-- Put HBM. -/
def State.setHbm (s : State) (x : HbmState) : State := { s with hbm := x }

/-- Put the front end. -/
def State.setFe (s : State) (x : FeState) : State := { s with fe := x }

/-- Put the discipline. -/
def State.setChr (s : State) (x : ChrState) : State := { s with chr := x }

/-- Put firmware. -/
def State.setFw (s : State) (x : FwState) : State := { s with fw := x }

/-- Put the I/O die. -/
def State.setSys (s : State) (x : SysState) : State := { s with sys := x }

/-- Put the packets on the network. -/
def State.setNet (s : State) (x : List Packet) : State := { s with net := x }

/-- Put Chorus. -/
def State.setChorus (s : State) (x : Chorus) : State := { s with chorus := x }

/-- Put the Leapfrog engine's TLB. -/
def State.setLfTlb (s : State) (x : List TlbEntry) : State := { s with lfTlb := x }

/-- Put the writes to host memory. -/
def State.setHostOut (s : State) (x : List (Nat × Nat × List Byte)) : State := { s with hostOut := x }

/-- Put the completions of host reads. -/
def State.setCpls (s : State) (x : List (Nat × HostCpl)) : State := { s with cpls := x }

/-- Put the vectors raised. -/
def State.setMsix (s : State) (x : List (Nat × Nat)) : State := { s with msix := x }

/-! ## Registers -/

/-- What a register holds. -/
def State.reg (s : State) (a : Nat) : Word64 := Sparse.get (regReset s.variant) s.regs a

/-- Put a value into a register. -/
def State.setReg (s : State) (a : Nat) (v : Word64) : State :=
  { s with regs := Sparse.set (regReset s.variant) s.regs a v }

/-- Field [hi:lo] of a register. -/
def State.fld (s : State) (a hi lo : Nat) : Nat := bits (s.reg a) hi lo

/-- Put a value into field [hi:lo] of a register. -/
def State.setFld (s : State) (a hi lo x : Nat) : State := s.setReg a (setBits (s.reg a) hi lo x)

/-- Bit `i` of a register. -/
def State.bitOf (s : State) (a i : Nat) : Bool := bit (s.reg a) i

/-- Add to a counter field that saturates at its all-ones value. -/
def State.satInc (s : State) (a hi lo : Nat) (n : Nat := 1) : State :=
  s.setFld a hi lo (satAdd (hi + 1 - lo) (s.fld a hi lo) n)

/-- Add to a counter field that wraps. -/
def State.wrapInc (s : State) (a hi lo : Nat) (n : Nat := 1) : State := s.setFld a hi lo (s.fld a hi lo + n)

/-- Set bit `i` of a register. -/
def State.setBitOf (s : State) (a i : Nat) : State := s.setFld a i i 1

/-- Take the first of a kind of error: fill the register only while it holds none (R204, R231, R232, R394, R425). -/
def State.firstErr (s : State) (a : Nat) (v : Word64) : State :=
  if s.fld a 63 48 = 0 then s.setReg a v else s

/-- Return a register to its reset value. -/
def State.resetReg (s : State) (a : Nat) : State := s.setReg a (regReset s.variant a)

/-! ## Cores, contexts, positions -/

/-- Logical core `k`. -/
def State.core (s : State) (k : Nat) : CoreState := Sparse.get (fun _ => CoreState.reset) s.cores k

/-- Put a core. -/
def State.setCore (s : State) (k : Nat) (c : CoreState) : State :=
  { s with cores := Sparse.set (fun _ => CoreState.reset) s.cores k c }

/-- Change a core. -/
def State.modCore (s : State) (k : Nat) (f : CoreState → CoreState) : State := s.setCore k (f (s.core k))

/-- Context `c` of a core. -/
def CoreState.ctx (x : CoreState) (c : Nat) : CtxState := Sparse.get (fun _ => CtxState.reset) x.ctxs c

/-- Put a context. -/
def CoreState.setCtx (x : CoreState) (c : Nat) (t : CtxState) : CoreState :=
  { x with ctxs := Sparse.set (fun _ => CtxState.reset) x.ctxs c t }

/-- Context `c` of core `k`. -/
def State.ctx (s : State) (k c : Nat) : CtxState := (s.core k).ctx c

/-- Change a context. -/
def State.modCtx (s : State) (k c : Nat) (f : CtxState → CtxState) : State :=
  s.modCore k (fun x => x.setCtx c (f (x.ctx c)))

/-- Physical position `p`. -/
def State.pos (s : State) (p : Nat) : PosState := Sparse.get (fun _ => PosState.reset) s.posns p

/-- Change a position. -/
def State.modPos (s : State) (p : Nat) (f : PosState → PosState) : State :=
  { s with posns := Sparse.set (fun _ => PosState.reset) s.posns p (f (s.pos p)) }

/-- The position a logical slot is bound to, none while the slot is ABSENT (R22, R23). -/
def State.phys (s : State) (k : Nat) : Option Nat :=
  if k < s.variant.cores ∧ s.fld (R.TOP_SLOT_MAP k) 31 30 = 1 then some (s.fld (R.TOP_SLOT_MAP k) 9 0) else none

/-- PWR_DSTATE_d.STATE (R476): 0 ACTIVE, 1 GATED, 2 ENTERING, 3 RETAIN, 4 OFF, 5 SELF_REFRESH, 6 EXITING. -/
def State.dstate (s : State) (d : Nat) : Nat := s.fld (R.PWR_DSTATE d) 31 28

/-- The thermal trip is latched, so CCLK has stopped (R471). -/
def State.tripped (s : State) : Bool := s.bitOf R.PWR_TRIP 31

/-- Compute die `d` as the power core keeps it. -/
def State.die (s : State) (d : Nat) : DieRec := Sparse.get (fun _ => DieRec.reset) s.sys.pwr.dies d

/-- The compute die of a logical core (R21). -/
def State.coreDie (s : State) (k : Nat) : Nat := k / s.variant.slots / 16

/-- The CCLK of a compute die relocks, so the queues at its boundary hold their contents (R35). -/
def State.relocks (s : State) (d : Nat) : Bool := (s.die d).phase == 3

/-- A launch or a timed start whose target has come while the core could not take it is late (R169, R256, R260). -/
def CtxState.missed (t : CtxState) (now : Chorus) : CtxState :=
  { t with
    launch := t.launch.map (fun l => { l with late := l.late || decide (l.target ≤ now) })
    timed := t.timed.map (fun l => { l with late := l.late || decide (l.target ≤ now) }) }

/-- The core's window is held, its position is not awake, its clock relocks or has stopped (R35, R39, R456, R471): accesses
wait, and nothing issues or starts. -/
def State.shut (s : State) (k : Nat) : Bool :=
  (s.core k).winHeld || s.tripped || s.relocks (s.coreDie k) || (match s.phys k with | some p => decide (1 < s.dstate p) | none => false)

/-- Cluster of a logical core (R21). -/
def State.cluster (s : State) (k : Nat) : Nat := k / s.variant.slots

/-- Scalar register `i` of context `c` (R151): s0 reads zero. -/
def CtxState.sreg (t : CtxState) (i : Nat) : Word64 := if i = 0 then 0 else Sparse.get (fun _ => 0) t.s i

/-- Scalar register `i` of a context of a core. -/
def State.sreg (s : State) (k c i : Nat) : Word64 := (s.ctx k c).sreg i

/-- Write a scalar register (R151): a write to s0 is discarded. -/
def State.setSreg (s : State) (k c i : Nat) (v : Word64) : State :=
  if i = 0 then s else s.modCtx k c (fun t => { t with s := Sparse.set (fun _ => 0) t.s i v })

/-- SEQ_STATE_k.STATE of a context (R172). -/
def State.seqState (s : State) (k c : Nat) : Nat := s.fld (R.SEQ_STATE k c) 2 0

/-- Set SEQ_STATE_k.STATE. -/
def State.setSeqState (s : State) (k c x : Nat) : State := s.setFld (R.SEQ_STATE k c) 2 0 x

/-- The PC of a context (R173). -/
def State.pc (s : State) (k c : Nat) : Nat := s.fld (R.SEQ_PC k c) 21 0

/-- Set the PC. -/
def State.setPc (s : State) (k c x : Nat) : State := s.setFld (R.SEQ_PC k c) 21 0 x

/-! ## Chorus and partitions -/

/-- Whole nanoseconds of Chorus (R253). -/
def State.chorusNs (s : State) : Nat := bits s.chorus 71 8

/-- The partition numbers. -/
def partIds : List Nat := List.range 16

/-- The partition that holds context `c` of core `k` (R403). -/
def State.partOf (s : State) (k c : Nat) : Option Nat :=
  partIds.find? (fun p => s.bitOf (R.MMU_PCFG p) 63 && decide (s.fld (R.MMU_PCFG p) 61 60 = c) &&
    s.bitOf (R.MMU_PCFG p) (s.cluster k))

/-- The partition that a function is bound to (R403). -/
def State.partOfFunc (s : State) (f : Nat) : Option Nat :=
  partIds.find? (fun p => s.bitOf (R.MMU_PCFG p) 63 && decide (s.fld (R.MMU_PCFG p) 59 54 = f))

/-- Whole nanoseconds of a partition's view of Chorus (R407); no partition sees chip Chorus. -/
def State.viewNs (s : State) (p : Option Nat) : Nat :=
  match p with
  | none => s.chorusNs
  | some p => wrap 64 ((s.chorusNs : Int) - signed 64 (s.reg (R.MMU_TOFF p)).toNat)

/-- A partition-view instant in chip Chorus (R407): TOFF is added; an instant before chip Chorus 0 has passed, and stands
as 0. -/
def State.fromView (s : State) (p : Option Nat) (t : Int) : Nat :=
  match p with
  | none => t.toNat
  | some p => (t + signed 64 (s.reg (R.MMU_TOFF p)).toNat).toNat

/-- The clusters of a partition in rising order (R404). -/
def State.partClusters (s : State) (p : Nat) : List Nat :=
  (List.range 32).filter (fun c => s.bitOf (R.MMU_PCFG p) c)

/-- The logical core that partition core number `pc` names; it may be a hole (R404). -/
def State.partCore (s : State) (p pc : Nat) : Option Nat :=
  match (s.partClusters p)[pc / s.variant.slots]? with
  | some c => some (c * s.variant.slots + pc % s.variant.slots)
  | none => none

/-- The partition core number of a logical core (R404). -/
def State.coreNumber (s : State) (p k : Nat) : Nat :=
  ((s.partClusters p).takeWhile (fun c => c < s.cluster k)).length * s.variant.slots + k % s.variant.slots

/-- Every logical core of a partition (R404). -/
def State.partCores (s : State) (p : Nat) : List Nat :=
  (s.partClusters p).flatMap (fun c => (List.range s.variant.slots).map (fun j => c * s.variant.slots + j))

/-- A partition's front-end state. -/
def State.part (s : State) (p : Nat) : PartSt := Sparse.get (fun _ => PartSt.reset) s.fe.parts p

/-- Change a partition's front-end state. -/
def State.modPart (s : State) (p : Nat) (f : PartSt → PartSt) : State :=
  (s.setFe { s.fe with parts := Sparse.set (fun _ => PartSt.reset) s.fe.parts p (f (s.part p)) })

/-- Whether a context runs a firmware kernel (R236). -/
def State.isFwKernel (s : State) (k c : Nat) : Bool :=
  match (s.ctx k c).kernel with
  | some kn => kn.firmware
  | none => false

/-! ## Free values -/

/-- Advance the free-value counter by one. -/
def State.takeFree (s : State) : State := { s with free := s.free + 1 }

/-- The sequencer's clock has been gated for the running context of core `k` until now (R168, R247): SEQ_GATED_CNT takes
the CCLK, which the model does not count. -/
def State.gated (s : State) (k : Nat) : State :=
  (s.wrapInc (R.SEQ_GATED_CNT k) 63 0 (Config.gatedCclk s.free)).takeFree

/-! ## Register write errors (R10, R15, R534, R535) -/

/-- A discarded register write: TOP_REG_ERR takes the first, and the one with the lower address of two that fall into
one FCLK, which an open choice says of two in one nanosecond; every one is counted. -/
def State.regErr (s : State) (addr : Nat) (st : Status) : State :=
  let v : Word64 := BitVec.ofNat 64 (st.toNat * 2 ^ 48 + addr % 2 ^ 48)
  let take (s : State) : State := ((s.setReg R.TOP_REG_ERR v).setFw { s.fw with errAt := s.ns })
  let s : State :=
    if s.reg R.TOP_REG_ERR = 0 then take s
    else if s.fw.errAt = s.ns ∧ addr % 2 ^ 48 < s.fld R.TOP_REG_ERR 47 0 then
      (if Config.sameFclk s.free then take s else s).takeFree
    else s
  s.satInc R.TOP_REG_ERR_CNT 31 0

/-! ## The firmware log ring (R447, R448) -/

/-- Append one record to the log ring, the oldest leaving. -/
def State.logPut (s : State) (proc code level : Nat) (data : List Nat) : State :=
  let n := s.fw.logSeq + 1
  (s.setFw { s.fw with
      log := ((⟨code, proc, s.chorusNs, n, level :: data⟩ : LogRec) :: s.fw.log).take 16384, logSeq := n })

/-- Take an event for the log: written unless the pair has 1,000 records in this second of Chorus; the first after the
second ends is preceded by a SUPPRESSED record (R448). -/
def State.logEvent (s : State) (proc code level : Nat) (data : List Nat) : State :=
  let sec := s.chorusNs / 1000000000
  let rest := s.fw.counts.filter (fun c => !(c.proc == proc && c.code == code))
  let put (s : State) (c : LogCount) : State := (s.setFw { s.fw with counts := c :: rest })
  match s.fw.counts.find? (fun c => c.proc == proc && c.code == code) with
  | none => put (s.logPut proc code level data) ⟨proc, code, sec, 1, 0⟩
  | some c =>
    if c.sec = sec then
      if c.count ≥ 1000 then put s { c with supp := c.supp + 1 }
      else put (s.logPut proc code level data) { c with count := c.count + 1 }
    else
      let s1 := if c.supp = 0 then s else s.logPut proc 1 1 [code, proc, c.supp]
      put (s1.logPut proc code level data) ⟨proc, code, sec, if c.supp = 0 then 1 else 2, 0⟩

/-- FW_STAT_i.STATE (R454): 0 OFF, 1 BOOT, 2 RUN, 3 RESTART, 4 FAILED. -/
def State.procState (s : State) (i : Nat) : Nat := s.fld (R.FW_STAT i) 63 61

/-- The scheduler core's number (R429). -/
def schedProc : Nat := 2

/-! ## Notices (R442 to R445) -/

/-- A function's firmware state. -/
def State.fn (s : State) (f : Nat) : FnState := Sparse.get (fun _ => FnState.reset) s.fw.fns f

/-- Change a function's firmware state. -/
def State.modFn (s : State) (f : Nat) (g : FnState → FnState) : State :=
  (s.setFw { s.fw with fns := Sparse.set (fun _ => FnState.reset) s.fw.fns f (g (s.fn f)) })

/-- The enabled functions: the PF and the VFs that SR-IOV enables (R400). -/
def State.funcs (s : State) : List Nat := List.range (s.fw.numVfs + 1)

/-- Raise an MSI-X vector of a function; while it is masked it is pending. -/
def State.raiseMsix (s : State) (f v : Nat) : State :=
  if (s.fn f).msixMask.testBit v then s.modFn f (fun x => { x with msixPend := x.msixPend ||| 2 ^ v })
  else (s.setMsix (s.msix ++ [(f, v)]))

/-- The 64 bytes of a notice (R442). -/
def Notice.bytes (n : Notice) : List Byte :=
  leBytes 1 n.ty ++ [0#8] ++ leBytes 2 n.status.toNat ++ leBytes 4 n.seq ++ leBytes 8 n.time ++ slice n.body 0 48

/-- Notices in a function's ring (R444). -/
def State.nrCount (s : State) (f : Nat) : Nat :=
  (s.fld (R.MBX_NR_TAIL f) 4 0 + 32 - s.fld (R.MBX_NR_HEAD f) 4 0) % 32

/-- Write a notice at TAIL, advance TAIL and raise vector 8; a COMMAND_DONE ends its command's outstanding state. -/
def State.nrWrite (s : State) (f : Nat) (n : Notice) : State :=
  let t := s.fld (R.MBX_NR_TAIL f) 4 0
  let s := s.modFn f (fun x => { x with page := Sparse.setList (fun _ => 0#8) x.page (0x800 + 64 * t) n.bytes })
  let s := (s.setFld (R.MBX_NR_TAIL f) 4 0 (t + 1)).raiseMsix f 8
  match n.cmd with
  | none => s
  | some i =>
    (s.setFw { s.fw with journal := s.fw.journal.eraseP (fun (j : Journal) => j.func == f && j.slot == i && j.done) })

/-- Write held notices while the ring has room; a NOTICE_LOST notice goes first when notices were discarded (R444). -/
def State.nrDrain (s : State) (f : Nat) : Nat → State
  | 0 => s
  | fuel + 1 =>
    if s.nrCount f ≥ 31 then s
    else if (s.fn f).lost ≠ 0 then
      let x := s.fn f
      let n : Notice := ⟨0x0B, 0, x.seq + 1, s.viewNs (s.partOfFunc f), leBytes 4 x.lost, none⟩
      ((s.modFn f (fun x => { x with lost := 0, seq := x.seq + 1 })).nrWrite f n).nrDrain f fuel
    else match (s.fn f).held with
      | [] => s
      | n :: r => ((s.modFn f (fun x => { x with held := r })).nrWrite f n).nrDrain f fuel

/-- Post a notice to a function (R444). -/
def State.notice (s : State) (f ty : Nat) (st : Status) (body : List Byte) (cmd : Option Nat) : State :=
  let x := s.fn f
  let n : Notice := ⟨ty, st, x.seq + 1, s.viewNs (s.partOfFunc f), body, cmd⟩
  let s := s.modFn f (fun x => { x with seq := x.seq + 1 })
  if s.nrCount f < 31 ∧ x.held = [] ∧ x.lost = 0 then s.nrWrite f n
  else if cmd.isSome || decide ((x.held.filter (fun h => h.cmd.isNone)).length < 16) then
    s.modFn f (fun x => { x with held := x.held ++ [n] })
  else (s.modFn f (fun x => { x with lost := x.lost + 1 })).satInc (R.MBX_NR_LOST f) 31 0

/-- Post a notice to every enabled function. -/
def State.noticeAll (s : State) (ty : Nat) (st : Status) (body : List Byte) : State :=
  s.funcs.foldl (fun s f => s.notice f ty st body none) s

/-! ## Command completion (R434, R440, R441) -/

/-- Write REPLY and then STATE of the message in slot `i`: 0x02 done, 0x03 rejected (R434, R435). -/
def State.msgReply (s : State) (f i : Nat) (reply : List Byte) (st : Nat) : State :=
  s.modFn f (fun x =>
    { x with page := Sparse.set (fun _ => 0#8) (Sparse.setList (fun _ => 0#8) x.page (0x400 + 64 * i + 0x10)
        (slice reply 0 32)) (0x400 + 64 * i + 0x07) (BitVec.ofNat 8 st) })

/-- An accepted command in slot `i` of a function that has not completed. -/
def openCmd (f i : Nat) (j : Journal) : Bool := j.func == f && j.slot == i && j.acc && !j.done

/-- Complete a command (R441): REPLY, STATE 0x02, COMMAND_DONE. A command of a firmware processor has no message; one that
a restart has ended (R433) completes no second time. -/
def State.cmdDone (s : State) (f : Nat) (slot : Option Nat) (tag code : Nat) (reply : List Byte) : State :=
  match slot with
  | none => s
  | some i =>
    if s.fw.journal.any (openCmd f i) then
      let s := s.msgReply f i reply 2
      let js := modifyFirst (openCmd f i) (fun j => { j with done := true }) s.fw.journal
      let s := (s.setFw { s.fw with journal := js })
      s.notice f 1 (BitVec.ofNat 16 (leAt reply 0 2)) (leBytes 2 code ++ leBytes 1 tag ++ leBytes 1 i) (some i)
    else s

/-- The reply of a command whose chapter gives no layout: STATUS and zeros (R434). -/
def replyStatus (st : Status) : List Byte := leBytes 2 st.toNat

/-! ## Answers -/

/-- The next state. -/
abbrev Out := Host.Outcome State Fault Refusal

end Sys2Proof.Machine
end

