-- ==== Sys2Proof/Machine/Caps.lean ====
section
/-!
DEFINITION. The capability block (R6 to R8, R22 to R24, R536 to R539): what it holds follows from the state of the units,
and every change to it goes through the TOP_CAP_GEN bracket.
-/

namespace Sys2Proof.Machine

/-- A link's controller. -/
def State.link (s : State) (l : Nat) : LinkRec := Sparse.get (fun _ => LinkRec.reset) s.sys.links l

/-- Change a link's controller. -/
def State.modLink (s : State) (l : Nat) (f : LinkRec → LinkRec) : State :=
  (s.setSys { s.sys with links := Sparse.set (fun _ => LinkRec.reset) s.sys.links l (f (s.link l)) })

/-- LNK_STAT_l.STATE (R336). -/
def State.linkState (s : State) (l : Nat) : Nat := s.fld (R.LNK_STAT l) 63 60

/-- A link's capability state (R537, R326). -/
def State.linkCap (s : State) (l : Nat) : Nat :=
  if s.variant.link l = false ∨ (s.link l).untested then 0
  else if (s.link l).degraded ∨ s.linkState l = 7 then 2 else 1

/-- Place the two-bit states of `n` units into a word, unit i at bits [2i+1:2i]. -/
def packStates (n : Nat) (f : Nat → Nat) : Nat := ((List.range n).map (fun i => (f i % 4) * 2 ^ (2 * i))).foldl (· + ·) 0

/-- Sum over a list. -/
def sumOf (l : List Nat) : Nat := l.foldl (· + ·) 0

/-- Stack state (R394). -/
def State.stackCap (s : State) (x : Nat) : Nat := if s.variant.stack x then s.fld (R.HBM_STAT x) 31 30 else 0

/-- Cluster state (R24). -/
def State.clusterCap (s : State) (c : Nat) : Nat := s.fld (R.TOP_CLUSTER c) 31 30

/-- State of a compute die (R537): the stacks it counts are those the variant fits on it. -/
def State.dieCap (s : State) (d : Nat) : Nat :=
  let cl := (List.range 16).map (fun i => s.clusterCap (16 * d + i))
  let st := ((List.range 4).map (· + 4 * d)).filter s.variant.stack
  if cl.all (· == 1) && st.all (fun x => s.stackCap x == 1) then 1
  else if cl.all (· == 0) then 0 else 2

/-- State of a firmware processor (R538). -/
def State.procCap (s : State) (i : Nat) : Nat :=
  let x := s.procState i
  if x = 1 ∨ x = 2 ∨ x = 3 then 1 else 0

/-- The variant's code (R7). -/
def Variant.code (v : Variant) : Nat := match v with | .a800 => 1 | .a640 => 2 | .n640 => 3

/-- TOP_POS_p.STATE (R503). -/
def State.posState (s : State) (p : Nat) : Nat := s.fld (R.TOP_POS p) 31 29

/-- SLOTS_LIVE, SLOTS_NOMINAL and STATE of a cluster from its slots (R24). -/
def State.clusterSync (s : State) (c : Nat) : State :=
  let n := s.variant.slots
  let live := ((List.range n).filter (fun j => (s.phys (c * n + j)).isSome)).length
  let st := if live = n then 1 else if live = 0 then 0 else 2
  let a := R.TOP_CLUSTER c
  ((s.setFld a 31 30 st).setFld a 12 8 live).setFld a 4 0 n

/-- TOP_CAP_ID from the fuses and the bound slots (R536). -/
def State.capSyncId (s : State) : State :=
  let live := ((List.range s.variant.cores).filter (fun k => (s.phys k).isSome)).length
  s.setReg R.TOP_CAP_ID (BitVec.ofNat 64 (Variant.code s.variant * 2 ^ 56 + 2 ^ 48 + s.variant.cores * 2 ^ 16 + live))

/-- TOP_CAP_UNIT from the dies, stacks and links (R537). -/
def State.capSyncUnit (s : State) : State :=
  s.setReg R.TOP_CAP_UNIT (BitVec.ofNat 64 ((if s.variant.lf then 1 else 0) * 2 ^ 56 + s.dieCap 1 * 2 ^ 54 +
    s.dieCap 0 * 2 ^ 52 + packStates 8 s.stackCap * 2 ^ 32 + packStates 16 s.linkCap))

/-- TOP_CAP_CLUSTER, TOP_CAP_PROC0 and TOP_CAP_PROC1 (R24, R538). -/
def State.capSyncStates (s : State) : State :=
  ((s.setReg R.TOP_CAP_CLUSTER (BitVec.ofNat 64 (packStates 32 s.clusterCap))).setReg
    R.TOP_CAP_PROC0 (BitVec.ofNat 64 (packStates 32 s.procCap))).setReg
    R.TOP_CAP_PROC1 (BitVec.ofNat 64 (packStates 3 (fun j => s.procCap (32 + j))))

/-- Spare positions at shipment: at least 8 (R4), at most one in each cluster (R545). -/
def shippedSpares : Nat := 8 + Config.shipSpares % 25

/-- TOP_INV_CORE and TOP_INV_SHIP (R539). -/
def State.capSyncCores (s : State) : State :=
  let pos (x : Nat) : Nat := ((List.range 832).filter (fun p => s.posState p = x)).length
  let noSpare := ((List.range 32).filter (fun c => s.fld (R.TOP_CLUSTER c) 20 16 = 0x1F)).length
  (s.setReg R.TOP_INV_CORE (BitVec.ofNat 64 (noSpare * 2 ^ 48 + pos 2 * 2 ^ 32 + pos 4 * 2 ^ 16 + pos 5))).setReg
    R.TOP_INV_SHIP (BitVec.ofNat 64 shippedSpares)

/-- TOP_INV_MEM and TOP_INV_LANE (R539). -/
def State.capSyncSpares (s : State) : State :=
  let fitted := (List.range 8).filter (fun x => s.stackCap x ≠ 0)
  let spare := sumOf (fitted.map (fun x => s.fld (R.HBM_PPR x) 11 0))
  let pend := ((List.range 8).filter (fun x => s.bitOf (R.HBM_PPR x) 12)).length
  let srow := sumOf (((List.range 832).filter (fun p => s.posState p = 1 ∨ s.posState p = 2)).map (fun p => s.fld (R.TOP_POS p) 24 16))
  (s.setReg R.TOP_INV_MEM (BitVec.ofNat 64 (spare * 2 ^ 48 + pend * 2 ^ 32 + srow))).setReg
    R.TOP_INV_LANE (BitVec.ofNat 64 (packStates 16 (fun l => (s.link l).dropped)))

/-- Bring every register of the capability block to what the units are (R536 to R539). -/
def State.capSync (s : State) : State :=
  ((List.range 32).foldl (fun s c => s.clusterSync c) s).capSyncId.capSyncUnit.capSyncStates.capSyncCores.capSyncSpares

/-- An update of the capability block (R8): TOP_CAP_GEN turns odd, the fields change, it turns even, and every enabled
function has its notice. Until bring-up makes TOP_CAP_GEN even for the first time there is no bracket and no notice. -/
def State.capUpdate (s : State) (f : State → State) : State :=
  if s.fld R.TOP_CAP_GEN 0 0 = 1 then f s
  else
    let s := s.wrapInc R.TOP_CAP_GEN 31 0
    let s := (f s).capSync.wrapInc R.TOP_CAP_GEN 31 0
    s.noticeAll 2 0 (leBytes 4 (s.fld R.TOP_CAP_GEN 31 0))

/-! ## Shares that a higher rank takes (R423, R424) -/

/-- SHARE of a partition (R427). -/
def State.share (s : State) (p : Nat) : Nat := s.fld (R.FE_PSHARE p) 7 0

/-- The partitions that exist. -/
def State.partsLive (s : State) : List Nat := partIds.filter (fun p => s.bitOf (R.MMU_PCFG p) 63)

/-- `n / d` of 1,024, rounded to nearest. -/
def per1024 (n d : Nat) : Nat := (2 * n * 1024 + d) / (2 * d)

/-- A partition's configured share of a resource is `cn / cd` and its effective one `en / ed` (R424): a notice when they
differ by more than 16 / 1,024, at most one in 10 ms, and one more when the change ends. -/
def State.qosPart (s : State) (res p cn cd en ed : Nat) : State :=
  let key := 4 * p + res
  let last := Sparse.get (fun _ => (0, false)) s.sys.qos key
  let a : Int := (cn * ed * 1024 : Nat) - (en * cd * 1024 : Nat)
  let far := decide ((16 * (cd * ed) : Nat) < a.natAbs)
  let due := decide (last.1 = 0) || decide (last.1 + 9999999 < s.ns + 1)
  if cd = 0 ∨ ed = 0 then s
  else if (far && due) || (!far && last.2) then
    let q := Sparse.set (fun _ => (0, false)) s.sys.qos key (s.ns + 1, far)
    ((s.setSys { s.sys with qos := q }) : State).notice (s.fld (R.MMU_PCFG p) 59 54) 0x0A 0
      (leBytes 1 res ++ leBytes 1 0 ++ leBytes 2 (per1024 cn cd) ++ leBytes 2 (per1024 en ed)) none
  else s

/-- Of a resource that the partitions `ps` contend for, `num / den` is left (R423): each gets its part of that. -/
def State.qosFall (s : State) (res : Nat) (ps : List Nat) (num den : Nat) : State :=
  let t := sumOf (ps.map s.share)
  ps.foldl (fun s p => s.qosPart res p (s.share p) t (s.share p * num) (t * den)) s

end Sys2Proof.Machine
end

