-- ==== Sys2Proof/Machine/Mem.lean ====
section
/-!
DEFINITION. Stored data: scratchpad words (R175, R181 to R188), HBM blocks (R380 to R385), leaky buckets (R387, R388),
and the address checks of R38.
-/

namespace Sys2Proof.Machine

/-! ## Codes (R103, R183, R382) -/

/-- The codes over stored bits: a scratchpad word of class A or W, an HBM block, a 32-bit word of the accumulators or the
vector registers. -/
inductive Code where
  | classA | classW | hbm | word32
  deriving DecidableEq, Repr

/-- Errors that a code corrects. -/
def Code.corrects : Code → Nat
  | .classA => 1 | .classW => 2 | .hbm => 3 | .word32 => 1

/-- Errors that a code detects as uncorrectable. -/
def Code.detects : Code → Nat
  | .classA => 2 | .classW => 3 | .hbm => 4 | .word32 => 2

/-- Differences of an index that a code always detects. -/
def Code.index : Code → Nat
  | .classA => 2 | .classW => 3 | .hbm => 4 | .word32 => 0

/-- What a decoder sees of an upset (R183, R382): within the stated bounds the table's outcome, beyond them a free one. The
mark says that data pass which were never written there. -/
def Code.decode (c : Code) (u : Upset) (free : Nat) : Err × Bool :=
  match u with
  | .wrong n =>
    if n = 0 then (.ok, false)
    else if n ≤ c.corrects then (.corr, false)
    else if n ≤ c.detects then (.ue, false)
    else match Config.beyondBound free with
      | 0 => (.ok, true)
      | 1 => (.corr, true)
      | 2 => (.ue, false)
      | _ => (.mismatch, false)
  | .index n =>
    if n = 0 then (.ok, false)
    else if n ≤ c.index || !Config.indexMissed free then (.mismatch, false)
    else (.ok, true)

/-! ## Retirement (R495) -/

/-- A bound position that has reached a threshold of TOP_REGEN_CFG becomes RETIRING (R495). -/
def State.retireCheck (s : State) (p : Nat) : State :=
  let ovf := s.fld R.TOP_REGEN_CFG 15 8
  let ue := s.fld R.TOP_REGEN_CFG 7 0
  if s.fld (R.TOP_POS p) 31 29 = 1 ∧
      ((ovf ≠ 0 ∧ ovf ≤ s.fld (R.HBM_CBKT p) 31 16) ∨ (ue ≠ 0 ∧ ue ≤ (s.pos p).pad.ueCnt)) then
    let s := (s.capUpdate (fun s => s.setFld (R.TOP_POS p) 31 29 3)).satInc R.TOP_REGEN_STAT 15 0
    (s.setSys { s.sys with retire := s.sys.retire ++ [⟨p, s.ns, false, none⟩] })
  else s

/-- An uncorrectable event of a position is counted (R495). -/
def State.ueEvent (s : State) (p : Nat) : State :=
  (s.modPos p (fun x => { x with pad := { x.pad with ueCnt := x.pad.ueCnt + 1 } })).retireCheck p

/-- The bank row of a word becomes a repair candidate (R500). -/
def State.rowCand (s : State) (p w : Nat) : State :=
  let c : Nat × Nat := (w / 8 % 32, w / 256)
  s.modPos p (fun x => if c ∈ x.pad.cands then x else { x with pad := { x.pad with cands := x.pad.cands ++ [c] } })

/-! ## Leaky buckets (R387, R388) -/

/-- One event reaches a bucket: LEVEL rises, or at CAP the bucket overflows and raises one interrupt. -/
def State.bucketEvent (s : State) (b : Bucket) : State :=
  let (a, cap) := match b with
    | .stack x => (R.HBM_BKT x.val, s.fld R.HBM_BKT_CFG 63 48)
    | .core p => (R.HBM_CBKT p.val, s.fld R.HBM_BKT_CFG 31 16)
  if s.fld a 15 0 = cap then
    let s := (s.satInc a 31 16).setFld a 15 0 0
    let s : State := match b with | .core p => s.retireCheck p.val | .stack _ => s
    (s.setFw { s.fw with irqs := s.fw.irqs ++ [b] })
  else s.setFld a 15 0 (s.fld a 15 0 + 1)

/-- One event reaches the bucket of position `p`. -/
def State.coreEvent (s : State) (p : Nat) : State :=
  if h : p < 832 then s.bucketEvent (.core ⟨p, h⟩) else s

/-- One event reaches the bucket of stack `x`. -/
def State.stackEvent (s : State) (x : Nat) : State :=
  if h : x < 8 then s.bucketEvent (.stack ⟨x, h⟩) else s

/-! ## Scratchpad (R175, R181 to R188) -/

/-- Bytes of a window (R175). -/
def padSize : Nat := 0x30_0000

/-- The context that owns segment `g` of core `k`, none for a segment that belongs to no context (R181, R200). -/
def State.segOwner (s : State) (k g : Nat) : Option Nat :=
  if g < 48 ∧ s.bitOf (R.SP_SEG k g) 7 then some (s.fld (R.SP_SEG k g) 4 3) else none

/-- Whether segment `g` is of class W (R183). -/
def State.segClassW (s : State) (k g : Nat) : Bool := s.bitOf (R.SP_SEG k g) 0

/-- The segments that a byte range touches. -/
def segsOf (off len : Nat) : List Nat :=
  if len = 0 then [] else (List.range ((off + len - 1) / 0x10000 + 1 - off / 0x10000)).map (· + off / 0x10000)

/-- Whether context `c` owns every segment that a range of core `k` touches (R181). -/
def State.owns (s : State) (k c off len : Nat) : Bool := (segsOf off len).all (fun g => s.segOwner k g = some c)

/-- The storage of the position that slot `k` is bound to. -/
def State.padOf (s : State) (k : Nat) : Pad :=
  match s.phys k with
  | some p => (s.pos p).pad
  | none => Pad.reset

/-- How a read of word `w` resolves (R185): `none` for rows 5 and 6. -/
def Pad.resolve (p : Pad) (w : Nat) : Option Status :=
  if Sparse.get (fun _ => false) p.written w = false then some 0x0702
  else if Sparse.get (fun _ => false) p.poison w then some 0x0703
  else match Sparse.get (fun _ => Err.ok) p.errs w with
    | .mismatch => some 0x0704
    | .ue => some 0x0701
    | _ => none

/-- One byte of storage. -/
def Pad.byte (p : Pad) (o : Nat) : Byte := Sparse.get (fun _ => 0#8) p.bytes o

/-- The words that a byte range touches. -/
def wordsOf (off len : Nat) : List Nat :=
  if len = 0 then [] else (List.range ((off + len - 1) / 8 + 1 - off / 8)).map (· + off / 8)

/-- Record an uncorrectable read of core `k` (R185, R204); the registers are the slot's. -/
def State.spUe (s : State) (k : Option Nat) (p w : Nat) (st : Status) : State :=
  let s := if st = 0x0703 then s else (s.rowCand p w).ueEvent p
  match k with
  | none => s
  | some k => (s.firstErr (R.SP_UE_FIRST k) (BitVec.ofNat 64 (st.toNat * 2 ^ 48 + w * 8))).satInc (R.SP_UE_CNT k) 31 0

/-- A read meets word `w` of position `p` (R185): rows 2 to 4 are recorded, row 5 is counted once until written back.
SP_UE_CNT rises for each word that resolves so: DEDUCED, log entry 96. -/
def State.touchWord (s : State) (k : Option Nat) (p w : Nat) : State :=
  let pad := (s.pos p).pad
  match pad.resolve w with
  | some st => if st = 0x0702 then s else s.spUe k p w st
  | none =>
    if Sparse.get (fun _ => Err.ok) pad.errs w = .corr ∧ w ∉ pad.wb then
      let s := if w ∈ pad.fixed then s.rowCand p w else s
      (s.modPos p (fun x => { x with pad := { x.pad with wb := x.pad.wb ++ [w] } })).coreEvent p
    else s

/-- Status of a read: that of the first word, in rising order, that rows 1 to 4 decide. -/
def Pad.readStatus (p : Pad) (off len : Nat) : Status :=
  match (wordsOf off len).findSome? p.resolve with
  | some st => st
  | none => 0

/-- Bytes of a read; those of words that rows 1 to 4 decide are poisoned (R187). -/
def Pad.readBytes (p : Pad) (off len : Nat) : List TByte :=
  (List.range len).map (fun i => if (p.resolve ((off + i) / 8)).isSome then none else some (p.byte (off + i)))

/-- A read of position `p`'s storage (R185). -/
def State.padReadP (s : State) (k : Option Nat) (p off len : Nat) : State × List TByte × Status :=
  let pad := (s.pos p).pad
  ((wordsOf off len).foldl (fun s w => s.touchWord k p w) s, pad.readBytes off len, pad.readStatus off len)

/-- A read of core `k`'s own window (R185). -/
def State.padRead (s : State) (k off len : Nat) : State × List TByte × Status :=
  match s.phys k with
  | some p => s.padReadP (some k) p off len
  | none => (s, List.replicate len none, 0x0101)

/-- The part of a run of bytes at `off` that falls into word `w`: where it starts in the word, and its bytes. -/
def wordPart (off : Nat) (data : List TByte) (w : Nat) : Nat × List TByte :=
  let lo := max off (8 * w)
  (lo - 8 * w, (data.drop (lo - off)).take (8 * w + 8 - lo))

/-- Write part of word `w` (R184, R186, R188): whole words replace, partial words merge, a poisoned byte poisons the word,
and a word that rows 2 to 4 decide is left as it is by a partial write (`false`). -/
def Pad.writeWord (p : Pad) (w o : Nat) (data : List TByte) : Pad × Bool :=
  let whole := decide (o = 0 ∧ data.length = 8)
  let bad := match p.resolve w with
    | some st => st != 0x0702
    | none => false
  if !whole && bad then (p, false)
  else
    let base := if (p.resolve w).isSome then Sparse.setList (fun _ => 0#8) p.bytes (8 * w) (List.replicate 8 0#8) else p.bytes
    ({ p with
        bytes := Sparse.setList (fun _ => 0#8) base (8 * w + o) (data.map (fun b => b.getD 0#8))
        written := Sparse.set (fun _ => false) p.written w true
        poison := Sparse.set (fun _ => false) p.poison w (data.any (fun b => b.isNone))
        errs := Sparse.set (fun _ => Err.ok) p.errs w .ok
        wb := p.wb.filter (· != w) }, true)

/-- Write a run of bytes, word by word; `false` when some word refused a merge (R186). -/
def Pad.write (p : Pad) (off : Nat) (data : List TByte) : Pad × Bool :=
  (wordsOf off data.length).foldl (fun (x : Pad × Bool) w =>
    let (o, d) := wordPart off data w
    let (p, ok) := x.1.writeWord w o d
    (p, x.2 && ok)) (p, true)

/-- A write to position `p`'s storage. What the bank reads to merge is no read of R185: DESIGN CHOICE, log entry 97. -/
def State.padWriteP (s : State) (p off : Nat) (data : List TByte) : State × Bool :=
  let r := (s.pos p).pad.write off data
  (s.modPos p (fun x => { x with pad := r.1 }), r.2)

/-- A write to core `k`'s own window. -/
def State.padWrite (s : State) (k off : Nat) (data : List TByte) : State × Bool :=
  match s.phys k with
  | some p => s.padWriteP p off data
  | none => (s, false)

/-- Something happens to the stored bits of word `w` of position `p`, read under class W or A (R183). Bits of an unwritten
word are not looked at (R185 row 1). -/
def State.upsetWordP (s : State) (p w : Nat) (classW : Bool) (u : Upset) : State :=
  let r := (if classW then Code.classW else Code.classA).decode u s.free
  if Sparse.get (fun _ => false) (s.pos p).pad.written w then
    (s.modPos p (fun x => { x with pad := { x.pad with
      errs := Sparse.set (fun _ => Err.ok) x.pad.errs w r.1
      bytes := if r.2 then
          Sparse.setList (fun _ => 0#8) x.pad.bytes (8 * w) ((List.range 8).map (fun i => Config.upsetByte (8 * w + i) s.free))
        else x.pad.bytes } })).takeFree
  else s

/-- Something happens to the stored bits of word `w` of core `k`'s window (R183). -/
def State.upsetWord (s : State) (k w : Nat) (u : Upset) : State :=
  match s.phys k with
  | some p => s.upsetWordP p w (s.segClassW k (w / 0x2000)) u
  | none => s

/-- The bytes of a list that carries no poison. -/
def clean (data : List TByte) : List Byte := data.map (fun b => b.getD 0#8)

/-- Bytes as a transfer carries them. -/
def carried (data : List Byte) : List TByte := data.map some

/-- Make every word of segment `g` unwritten (R182 step 1). -/
def Pad.clearSegment (p : Pad) (g : Nat) : Pad :=
  let inW := fun w => w / 0x2000 == g
  { p with bytes := Sparse.drop p.bytes (fun o => o / 0x10000 == g), written := Sparse.drop p.written inW,
           poison := Sparse.drop p.poison inW, errs := Sparse.drop p.errs inW, wb := p.wb.filter (fun w => !inW w) }

/-! ## HBM (R380 to R385) -/

/-- The number of stacks fitted (R380). -/
def Variant.stackCount (v : Variant) : Nat := if v = .a640 then 6 else 8

/-- The stack of the i-th granule of a round (R380 step 3). -/
def stackOrder (i : Nat) : Nat := ([0, 4, 1, 5, 2, 6, 3, 7] : List Nat).getD i 0

/-- Stack and chip-wide pseudo-channel of an HBM address (R380). -/
def hbmMap (v : Variant) (a : Nat) : Nat × Nat :=
  let n := Variant.stackCount v
  let g := a / 2048
  let q := g % (64 * n)
  let r := g / (64 * n)
  let st := stackOrder (q % n)
  (st, st * 64 + ((q / n) ^^^ (r % 64)))

/-- A stack is not ACTIVE (R456): its controller holds what reaches it. -/
def State.stackDown (s : State) (st : Nat) : Bool := decide (1 < s.dstate (0x340 + st))

/-- A stack that holds some of `n` bytes at `a` is not ACTIVE (R458). -/
def State.stackSleeps (s : State) (a n : Nat) : Bool :=
  (List.range 8).any s.stackDown && (List.range ((a % 2048 + n + 2047) / 2048)).any (fun i => s.stackDown (hbmMap s.variant (a + 2048 * i)).1)

/-- Offset within its pseudo-channel (R380 step 5). -/
def hbmOffset (v : Variant) (a : Nat) : Nat := a / 2048 / (64 * Variant.stackCount v) * 2048 + a % 2048

/-- The address of offset `o` of chip-wide pseudo-channel `pc` (R380 inverted). -/
def hbmAddr (v : Variant) (pc o : Nat) : Nat :=
  let n := Variant.stackCount v
  let r := o / 2048
  let i := (((List.range n).find? (fun i => stackOrder i = pc / 64)).getD 0)
  let q := ((pc % 64) ^^^ (r % 64)) * n + i
  (r * (64 * n) + q) * 2048 + o % 2048

/-- The newest fill that covers an address (R386). -/
def HbmState.fillAt (h : HbmState) (v : Variant) (a : Nat) : Option FillRec :=
  h.fills.find? (fun f => decide (f.lo ≤ a) && decide (a < f.hi) && !f.skip.testBit (hbmMap v a).1)

/-- What an unlisted byte of HBM holds. -/
def hbmDefault (v : Variant) (h : HbmState) (a : Nat) : Byte :=
  match h.fillAt v a with
  | some f => BitVec.ofNat 8 (f.pattern.toNat >>> (8 * (a % 8)))
  | none => 0#8

/-- Whether an unlisted block has been written. -/
def hbmWroteDefault (v : Variant) (h : HbmState) (b : Nat) : Bool := (h.fillAt v (64 * b)).isSome

/-- Whether an unlisted word is poisoned. -/
def hbmPoisonDefault (v : Variant) (h : HbmState) (w : Nat) : Bool :=
  match h.fillAt v (8 * w) with
  | some f => f.poison
  | none => false

/-- One byte of HBM storage. -/
def State.hbmByte (s : State) (a : Nat) : Byte := Sparse.get (hbmDefault s.variant s.hbm) s.hbm.bytes a

/-- Whether a block has been written since power-on. -/
def State.hbmWrote (s : State) (b : Nat) : Bool := Sparse.get (hbmWroteDefault s.variant s.hbm) s.hbm.wrote b

/-- Whether a word's poison mask bit is set. -/
def State.hbmPoisoned (s : State) (w : Nat) : Bool := Sparse.get (hbmPoisonDefault s.variant s.hbm) s.hbm.poison w

/-- What a block's decoder says. -/
def State.hbmErr (s : State) (b : Nat) : Err := Sparse.get (fun _ => Err.ok) s.hbm.errs b

/-- Whether a stack is offline (R393). -/
def State.stackOff (s : State) (x : Nat) : Bool := s.bitOf (R.HBM_STAT x) 0

/-- How a read resolves word `w` of HBM: the first row of R384 that matches. A block never written since power-on gives
GS_0E01, or data, as an open constant says (R385). -/
def State.hbmResolve (s : State) (w : Nat) : Option Status :=
  let b := w / 8
  if s.stackOff (hbmMap s.variant (8 * w)).1 then some 0x0E05
  else if s.hbmWrote b = false then
    if Config.hbmUnwrittenReads b s.free then
      (if Config.hbmUnwrittenPoison w s.free then some 0x0E02 else none)
    else some 0x0E01
  else if s.hbmPoisoned w then some 0x0E02
  else match s.hbmErr b with
    | .mismatch => some 0x0E03
    | .ue => some 0x0E01
    | _ => none

/-- The byte a read returns where R384 rows 5 or 6 apply. -/
def State.hbmReadByte (s : State) (a : Nat) : Byte :=
  if s.hbmWrote (a / 64) then s.hbmByte a else Config.hbmUnwrittenByte a s.free

/-- The blocks that a byte range touches. -/
def blocksOf (a len : Nat) : List Nat :=
  if len = 0 then [] else (List.range ((a + len - 1) / 64 + 1 - a / 64)).map (· + a / 64)

/-- The granule, and so the repair row, of a block (R391). -/
def rowOf (b : Nat) : Nat := b / 32

/-- Make a row a repair candidate (R391). -/
def State.addCand (s : State) (row : Nat) : State :=
  if row ∈ s.hbm.cands then s
  else
    let st := (hbmMap s.variant (row * 2048)).1
    let s : State := (s.setHbm { s.hbm with cands := s.hbm.cands ++ [row] })
    if s.bitOf (R.HBM_PPR st) 12 then s else s.capUpdate (fun s => s.setFld (R.HBM_PPR st) 12 12 1)

/-- A read that touches words `ws` of block `b` (R384): rows 2 to 4 are counted and recorded, and rows 3 and 4 make the
row a repair candidate; row 5 counts in the stack's bucket and schedules a write-back. -/
def State.touchBlock (s : State) (b : Nat) (ws : List Nat) : State :=
  let st := (hbmMap s.variant (64 * b)).1
  let cs := ws.filterMap s.hbmResolve
  if s.stackOff st then s
  else
    let s1 := match cs with
      | [] => s
      | c :: _ => (s.firstErr (R.HBM_UE_FIRST st) (BitVec.ofNat 64 (c.toNat * 2 ^ 48 + 64 * b))).satInc (R.HBM_UE_CNT st) 31 0
    let s2 := if cs.any (fun c => c != 0x0E02) then s1.addCand (rowOf b) else s1
    if s.hbmErr b = .corr ∧ cs.length < ws.length then
      let s3 := s2.stackEvent st
      if b ∈ s3.hbm.wb then s3 else (s3.setHbm { s3.hbm with wb := s3.hbm.wb ++ [b] })
    else s2

/-- A read of HBM (R384): bytes, poisoned where rows 1 to 4 decide, and the status of the first such word. -/
def State.hbmRead (s : State) (a len : Nat) : State × List TByte × Status :=
  let data := (List.range len).map (fun i =>
    if (s.hbmResolve ((a + i) / 8)).isSome then none else some (s.hbmReadByte (a + i)))
  let st := match (wordsOf a len).findSome? s.hbmResolve with
    | some st => st
    | none => 0
  (((blocksOf a len).foldl (fun s b => s.touchBlock b ((wordsOf a len).filter (fun w => w / 8 == b))) s).takeFree, data, st)

/-- A block that nothing has written decodes clean in the rare case that R385 admits: it holds free bytes and free poison
from then on. -/
def State.hbmSettle (s : State) (b : Nat) : State :=
  if s.hbmWrote b || !Config.hbmUnwrittenReads b s.free then s
  else
    let pd := hbmPoisonDefault s.variant s.hbm
    (s.setHbm { s.hbm with
        bytes := Sparse.setList (hbmDefault s.variant s.hbm) s.hbm.bytes (64 * b)
          ((List.range 64).map (fun i => Config.hbmUnwrittenByte (64 * b + i) s.free))
        poison := (List.range 8).foldl (fun m i => Sparse.set pd m (8 * b + i) (Config.hbmUnwrittenPoison (8 * b + i) s.free))
          s.hbm.poison
        wrote := Sparse.set (hbmWroteDefault s.variant s.hbm) s.hbm.wrote b true })

/-- The bytes that a write of HBM stores: a byte of a poisoned word stores what is free (R383). -/
def storedBytes (a : Nat) (data : List TByte) (free : Nat) : List Byte :=
  data.zipIdx.map (fun x => x.1.getD (Config.upsetByte (a + x.2) free))

/-- Write a whole or partial block of HBM (R383, R393): the status is GS_0000, GS_0E04 or GS_0E05. A word written whole takes
the write's poison; a word written in part keeps its own. -/
def State.hbmWriteBlock (s : State) (b o : Nat) (data : List TByte) : State × Status :=
  let whole := decide (o = 0 ∧ data.length = 64)
  let a := 64 * b + o
  let stack := (hbmMap s.variant (64 * b)).1
  if s.stackOff stack then (s, 0x0E05)
  else
    let s := if whole then s else (s.hbmSettle b).takeFree
    let ws := wordsOf a data.length
    let partialBad := ws.any (fun w => decide ((wordPart a data w).2.length < 8) && s.hbmPoisoned w)
    let ue := !s.hbmWrote b || s.hbmErr b == .ue || s.hbmErr b == .mismatch
    if !whole && (ue || partialBad) then (s, 0x0E04)
    else
      let d := hbmDefault s.variant s.hbm
      let pd := hbmPoisonDefault s.variant s.hbm
      let poison := (ws.filter (fun w => (wordPart a data w).2.length = 8)).foldl (fun m w =>
        Sparse.set pd m w ((wordPart a data w).2.any (fun x => x.isNone))) s.hbm.poison
      ((s.setHbm { s.hbm with
          bytes := Sparse.setList d s.hbm.bytes a (storedBytes a data s.free)
          poison := poison
          wrote := Sparse.set (hbmWroteDefault s.variant s.hbm) s.hbm.wrote b true
          errs := Sparse.set (fun _ => Err.ok) s.hbm.errs b .ok
          wb := s.hbm.wb.filter (· != b) }), 0)

/-- The part of a run of bytes at `a` that falls into block `b`. -/
def blockPart (a : Nat) (data : List TByte) (b : Nat) : Nat × List TByte :=
  let lo := max a (64 * b)
  (lo - 64 * b, (data.drop (lo - a)).take (64 * b + 64 - lo))

/-- A write to HBM, block by block; the status is the first that is not GS_0000. -/
def State.hbmWrite (s : State) (a : Nat) (data : List TByte) : State × Status :=
  (blocksOf a data.length).foldl (fun (x : State × Status) b =>
    let (o, d) := blockPart a data b
    let (s, st) := x.1.hbmWriteBlock b o d
    (s, if x.2 = 0 then st else x.2)) (s, 0)

/-- Put a fill into memory: its range holds the pattern, or poison, wherever no stack of `skip` holds it (R386). -/
def State.hbmFill (s : State) (lo len : Nat) (pattern : Word64) (poison : Bool) (skip : Nat) : State :=
  let inA := fun a => decide (lo ≤ a) && decide (a < lo + len) && !skip.testBit (hbmMap s.variant a).1
  let h := s.hbm
  (s.setHbm { h with
      fills := ⟨lo, lo + len, pattern, poison, skip⟩ :: h.fills
      bytes := Sparse.drop h.bytes inA
      wrote := Sparse.drop h.wrote (fun b => inA (64 * b))
      poison := Sparse.drop h.poison (fun w => inA (8 * w))
      errs := Sparse.drop h.errs (fun b => inA (64 * b))
      wb := h.wb.filter (fun b => !inA (64 * b)) })

/-! ## Addresses (R36 to R38) -/

/-- The regions of R36 that hold anything. -/
inductive Region where
  | hbm
  | window (k : Nat)
  | phys (p : Nat)
  | reg
  | fwPriv
  deriving DecidableEq, Repr

/-- Base of the scratchpad windows. -/
def winBase : Nat := 0x0100_0000_0000

/-- Base of the physical-core windows. -/
def physBase : Nat := 0x0110_0000_0000

/-- Whether a position works: bring-up has not failed it (R36, R398). -/
def State.posWorks (s : State) (p : Nat) : Bool := decide (p < 832) && decide (s.fld (R.TOP_POS p) 31 29 ≠ 5)

/-- Whether the register blocks cover [a, e): the walk goes by 1 KiB, the smallest step between the spans of R529. -/
def regsCover : Nat → Nat → Nat → Bool
  | 0, a, e => decide (e ≤ a)
  | n + 1, a, e => decide (e ≤ a) || ((blockOf a).isSome && regsCover n ((a / 0x400 + 1) * 0x400) e)

/-- The populated piece that the whole range lies in, none when some byte lies in none (R38 check 1). -/
def State.regionOf (s : State) (a len : Nat) : Option Region :=
  let e := a + len
  if e ≤ s.variant.hbmEnd then some .hbm
  else if winBase ≤ a ∧ a < physBase then
    let k := (a - winBase) / 0x40_0000
    if (s.phys k).isSome ∧ (a - winBase) % 0x40_0000 + len ≤ padSize then some (.window k) else none
  else if physBase ≤ a ∧ a < 0x0120_0000_0000 then
    let p := (a - physBase) / 0x40_0000
    if s.posWorks p ∧ (a - physBase) % 0x40_0000 + len ≤ padSize then some (.phys p) else none
  else if R.topBase ≤ a ∧ a < 0x0300_0000_0000 then
    if regsCover (len / 0x400 + 2) a (max e (a + 1)) then some .reg else none
  else if 0x0300_0000_0000 ≤ a ∧ e ≤ 0x0400_0000_0000 then some .fwPriv
  else none

/-- The window offset of an address in a window. -/
def winOff (a : Nat) : Nat := a % 0x40_0000

end Sys2Proof.Machine
end

