-- ==== Sys2Proof/Machine/Fault.lean ====
section
/-!
DEFINITION. Faults of a context (R161): the stop of the sequencer, the discard of later work, and what is kept for the
records of R305 and R306.
-/

namespace Sys2Proof.Machine

/-- An instruction word from its opcode and bits [55:0] (R157). -/
def instrWord (op : Nat) (f : IBits) : Word64 := BitVec.ofNat 64 (op * 2 ^ 56 + f.toNat)

/-- The opcode of a queued matrix instruction (R73). -/
def MatKind.opcode : MatKind → Nat
  | .mhold => 0x40 | .mmul => 0x41 | .mdrain => 0x42 | .mdiscard => 0x43

/-- The opcode of a queued vector instruction (R131). -/
def VecKind.opcode : VecKind → Nat
  | .vld => 0x50 | .vst => 0x51 | .vop => 0x52 | .vcvt => 0x53 | .vred => 0x54 | .vrow => 0x55 | .nload => 0x56
  | .nrun => 0x57 | .vseed => 0x58

/-- The opcode of a queued transfer (R208). -/
def DmaKind.opcode : DmaKind → Nat
  | .dget => 0x80 | .dput => 0x81 | .put => 0x82 | .putf => 0x83

/-- What a unit reports when it faults a context (R161, R305): its code, the status, the place in program order and the
PC of the cause, the TRAP code, the micro-operation, the instruction word, the address and the coincidence mark. -/
structure Report where
  unit   : Nat
  status : Status
  seq    : Nat
  pc     : Nat
  code   : Nat := 0
  uop    : Nat := 0xFF
  instr  : Word64 := 0
  addr   : Nat := 0
  coin   : Bool := false
  deriving DecidableEq, Repr

/-- Discard matrix work: the entries `p` accepts leave the queue; tiles that only they would have opened go, and tiles
they would have closed stay open. -/
def CoreState.dropMat (x : CoreState) (p : MatEntry → Bool) : CoreState :=
  let gone := (x.mq.filter p).map (fun e => e.seq)
  { x with
    mq := x.mq.filter (fun e => !p e)
    tiles := (x.tiles.filter (fun t => t.live || !gone.contains t.oseq)).map (fun t =>
      match t.cseq with
      | some q => if gone.contains q then { t with cseq := none } else t
      | none => t) }

/-- Discard the work of context `c` that comes after `seq` in program order (R161): the discarded PCs are kept for the
engine record. -/
def CoreState.discard (x : CoreState) (c : CtxId) (seq : Nat) : CoreState :=
  let later := fun (d : CtxId) (q : Nat) => decide (d = c) && decide (seq < q)
  let t := x.ctx c.val
  let disc : Discards :=
    ⟨t.disc.ma ++ (x.mq.filter (fun e => later e.ctx e.seq)).map (fun e => e.pc),
     t.disc.ve ++ (x.vq.filter (fun e => later e.ctx e.seq)).map (fun e => e.pc),
     t.disc.dma ++ (x.dq.filter (fun e => later e.ctx e.seq)).map (fun e => e.pc)⟩
  let x := x.dropMat (fun e => later e.ctx e.seq)
  let x := { x with vq := x.vq.filter (fun e => !later e.ctx e.seq), dq := x.dq.filter (fun e => !later e.ctx e.seq) }
  x.setCtx c.val { (x.ctx c.val) with
    disc := disc, launch := none, wait := none, bask := none,
    credits := (x.ctx c.val).credits.map (fun w => if seq < w.seq then { w with dead := true } else w) }

/-- The descriptor a context runs. -/
def State.descOf (s : State) (k c : Nat) : Option Desc :=
  match (s.ctx k c).kernel with
  | some kn => s.fe.descs.find? (fun d => d.id = kn.desc)
  | none => none

/-- The cause record's contents for a report from core `k`, context `c` of partition `p` (R305). -/
def State.causeOf (s : State) (p k c : Nat) (r : Report) : Cause :=
  { slot := some k, unit := r.unit, status := r.status, core := s.coreNumber p k, ctx := c, coin := r.coin, pc := r.pc, code := r.code,
    uop := r.uop, instr := r.instr, addr := r.addr, time := s.viewNs (some p), desc := s.descOf k c }

/-- HEAD of a queue goes back over the entries that have come back next to it (R303). -/
def State.absorb (s : State) (f q : Nat) : Nat → State
  | 0 => s
  | n + 1 =>
    let a := R.FE_Q_PTR f q
    match s.fe.returned.find? (fun r => r.func == f && r.queue == q && (r.entry.index + 1) % 65536 == s.fld a 15 0) with
    | some r => ((s.setFe { s.fe with returned := s.fe.returned.erase r }).setFld a 15 0 r.entry.index).absorb f q n
    | none => s

/-- An entry returns to its queue (R301, R303): HEAD is as if it had not been taken; where later ones have been taken, it is
the next one that is delivered. -/
def State.returnEntry (s : State) (f q : Nat) (e : QueueEntry) : State :=
  let s : State := s.setFe { s.fe with returned := s.fe.returned ++ [⟨f, q, e⟩] }
  s.absorb f q s.fe.returned.length

/-- The BASK wait of a context is removed; an entry assigned to it returns to its queue (R301, R303). -/
def State.dropBask (s : State) (k c : Nat) : State :=
  match (s.ctx k c).bask with
  | none => s
  | some w =>
    let s := s.modCtx k c (fun t => { t with bask := none })
    match w.entry with
    | some e => s.returnEntry w.func w.queue e
    | none => s

/-- The instruction word at a PC: of the row that the fetch buffer holds, else of the scratchpad. -/
def State.wordAt (s : State) (k c pc : Nat) : Word64 :=
  match (s.ctx k c).rows.find? (fun x => x.row == pc / 64) with
  | some x => BitVec.ofNat 64 (leNat ((x.data.drop (pc % 64)).take 8))
  | none => BitVec.ofNat 64 (leNat (clean ((s.padOf k).readBytes (pc / 8 * 8) 8)))

/-- Where an instruction of context `c` is: the PC and the word of the queued one at place `seq` in program order, else what
stands at the PC (R305). -/
def State.instrAt (s : State) (k : Nat) (c : CtxId) (seq : Nat) : Nat × Word64 :=
  let x := s.core k
  let here (d : CtxId) (q : Nat) : Bool := decide (d = c) && q == seq
  match x.mq.find? (fun e => here e.ctx e.seq), x.vq.find? (fun e => here e.ctx e.seq), x.dq.find? (fun e => here e.ctx e.seq),
      (x.ctx c.val).counts.find? (fun e => e.seq == seq) with
  | some e, _, _, _ => (e.pc, instrWord e.kind.opcode e.f)
  | _, some e, _, _ => (e.pc, instrWord e.kind.opcode e.f)
  | _, _, some e, _ => (e.pc, instrWord e.kind.opcode e.f)
  | _, _, _, some e => (e.pc, e.instr)
  | _, _, _, _ => (s.pc k c.val, s.wordAt k c.val (s.pc k c.val))

/-- The context stops at the instruction that a report names (R161): later work is discarded, a wait that gated its clock
ends (R247), and the PC is the cause's. -/
def State.stopCtx (s : State) (k : Nat) (c : CtxId) (r : Report) : State :=
  let st := s.seqState k c.val
  let s := if (st = 3 ∨ st = 4) ∧ (s.core k).run = c then s.gated k else s
  let s := ((s.dropBask k c.val).modCore k (fun x => x.discard c r.seq)).modCtx k c.val (fun t => { t with
    fault := some ⟨r.seq, s.ns, r.status⟩ })
  ((s.setSeqState k c.val 6).setPc k c.val r.pc).setFld (R.FLG_WAIT k c.val) 63 63 0

/-- Whether the fault that a partition's quarantine records is of context `c` of core `k`. -/
def State.recorded (s : State) (p k : Nat) (c : CtxId) : Bool :=
  match (s.part p).quar with
  | some q => decide (q.slot = some k) && decide (q.ctx = c.val)
  | none => false

/-- A second fault of a context in the time of the first (R161): the instruction earlier in program order is the recorded
cause, and the record says that another was not recorded (R305). -/
def State.secondFault (s : State) (k : Nat) (c : CtxId) (m : FaultMark) (r : Report) : State :=
  let s := match s.partOf k c.val with
    | some p =>
      let both (q : Cause) : Cause := { (if r.seq < m.seq then s.causeOf p k c.val r else q) with coin := true }
      if s.recorded p k c then s.modPart p (fun x => { x with quar := x.quar.map both }) else s
    | none => s
  if r.seq < m.seq then s.stopCtx k c r else s

/-- A unit reports a fault of context `c` of core `k` (R161). A context that has no kernel takes none; one that has faulted
takes another only in the time of its first. The first fault of the partition is the one its quarantine records (R307). -/
def State.faultCtx (s : State) (k : Nat) (c : CtxId) (r : Report) : State :=
  let st := s.seqState k c.val
  if st = 0 then s
  else if st = 6 then
    match (s.ctx k c.val).fault with
    | some m => if m.ns = s.ns ∧ r.seq ≠ m.seq then s.secondFault k c m r else s
    | none => s
  else
    let s := match s.partOf k c.val with
      | some p => if (s.part p).quar.isSome then s else s.modPart p (fun x => { x with quar := some (s.causeOf p k c.val r) })
      | none => s
    s.stopCtx k c r

end Sys2Proof.Machine
end

