-- ==== Sys2Proof/Machine/Flags.lean ====
section
/-!
DEFINITION. Flags (R234 to R239) and the flag ranges of contexts (R235, R250, R251).
-/

namespace Sys2Proof.Machine

/-- Flag `n` of core `k`. -/
def State.flag (s : State) (k n : Nat) : Bool := s.bitOf (R.FLG_STATE k (n / 64)) (n % 64)

/-- Set flag `n` (R234). -/
def State.setFlag (s : State) (k n : Nat) : State := s.setFld (R.FLG_STATE k (n / 64)) (n % 64) (n % 64) 1

/-- Clear flag `n`. -/
def State.clrFlag (s : State) (k n : Nat) : State := s.setFld (R.FLG_STATE k (n / 64)) (n % 64) (n % 64) 0

/-- Set the flags of group `g` that a mask selects. -/
def State.setGroup (s : State) (k g : Nat) (mask : Word64) : State :=
  s.setReg (R.FLG_STATE k g) (s.reg (R.FLG_STATE k g) ||| mask)

/-- Clear the flags of group `g` that a mask selects. -/
def State.clrGroup (s : State) (k g : Nat) (mask : Word64) : State :=
  s.setReg (R.FLG_STATE k g) (s.reg (R.FLG_STATE k g) &&& ~~~ mask)

/-- Clear every flag of the groups listed. -/
def State.clrGroups (s : State) (k : Nat) (gs : List Nat) : State := gs.foldl (fun s g => s.setReg (R.FLG_STATE k g) 0) s

/-- The groups of a context's range as FLG_CTX_k gives them (R235, R250). -/
def groupsOf (v : Word64) : List Nat := (List.range (bits v 13 8)).map (· + bits v 5 0)

/-- Whether group `g` lies in context `c`'s range; a firmware kernel has group 0 as well (R235, R236). -/
def State.groupOk (s : State) (k c g : Nat) : Bool :=
  (groupsOf (s.reg (R.FLG_CTX k c))).contains g || (s.isFwKernel k c && g == 0)

/-- Whether flag `n` lies in context `c`'s range (R235). -/
def State.flagOk (s : State) (k c n : Nat) : Bool := s.groupOk k c (n / 64)

/-- Set a completion flag when FEN asks for it (R238). -/
def State.fenSet (s : State) (k : Nat) (fen : Bool) (n : Nat) : State := if fen then s.setFlag k n else s

/-- FLG_CTX_k takes a value: the flags of every group that enters or leaves the range are cleared (R237). -/
def State.setFlgCtx (s : State) (k c : Nat) (v : Word64) : State :=
  let new := groupsOf v
  let old := groupsOf (s.reg (R.FLG_CTX k c))
  (s.clrGroups k (old.filter (fun g => !new.contains g) ++ new.filter (fun g => !old.contains g))).setReg (R.FLG_CTX k c) v

/-- Write FLG_CTX_k (R237, R251). -/
def State.wrFlgCtx (s : State) (k c : Nat) (v : Word64) : State :=
  let a := R.FLG_CTX k c
  let new := groupsOf v
  let clash := (List.range 4).any (fun d => d != c && (groupsOf (s.reg (R.FLG_CTX k d))).any (fun g => new.contains g))
  if bits v 13 8 ≠ 0 ∧ (bits v 5 0 = 0 ∨ bits v 5 0 + bits v 13 8 > 64 ∨ clash = true) then s.regErr a 0x0904
  else if s.seqState k c ≠ 0 then s.regErr a 0x0905
  else s.setFlgCtx k c v

/-- Write FLG_FW_SET (R252). -/
def State.wrFlgFwSet (s : State) (k : Nat) (v : Word64) : State := s.setGroup k 0 v

/-- Write FLG_FW_CLR (R252). -/
def State.wrFlgFwClr (s : State) (k : Nat) (v : Word64) : State := s.clrGroup k 0 v

end Sys2Proof.Machine
end

