-- ==== Sys2Proof/Machine/Mmu.lean ====
section
/-!
DEFINITION. Translation (R411 to R418) and the address checks of R38 with each agent's privilege.
-/

namespace Sys2Proof.Machine

/-- Whether a range lies within one extent of partition `p` (R414 checks 1 and 5, R426). -/
def State.inExtent (s : State) (p a len : Nat) : Bool :=
  (List.range 8).any (fun e => s.bitOf (R.MMU_EXT p e 0) 63 &&
    decide (s.fld (R.MMU_EXT p e 0) 47 21 * 0x20_0000 ≤ a) &&
    decide (a + len ≤ (s.fld (R.MMU_EXT p e 1) 47 21 + 1) * 0x20_0000))

/-- The TLB of an agent. -/
def State.tlb (s : State) (u : TlbUser) : List TlbEntry :=
  match u with
  | .pos p => (s.pos p.val).tlb
  | .fe => s.fe.tlb
  | .lf => s.lfTlb

/-- Entries a TLB holds (R415). -/
def tlbSize : TlbUser → Nat
  | .pos _ => 256
  | .fe => 1024
  | .lf => 512

/-- Replace the TLB of an agent. -/
def State.setTlb (s : State) (u : TlbUser) (t : List TlbEntry) : State :=
  match u with
  | .pos p => s.modPos p.val (fun x => { x with tlb := t })
  | .fe => (s.setFe { s.fe with tlb := t })
  | .lf => (s.setLfTlb t)

/-- Put an entry in front as the most recently used, the least recently used leaving a full TLB (R415). -/
def State.tlbUse (s : State) (u : TlbUser) (e : TlbEntry) : State :=
  s.setTlb u ((e :: (s.tlb u).filter (fun x => x ≠ e)).take (tlbSize u))

/-- Remove a partition's entries that overlap a range from a TLB (R417). -/
def State.tlbDrop (s : State) (u : TlbUser) (p lo len : Nat) : State :=
  s.setTlb u ((s.tlb u).filter (fun e => !(e.part == p && overlaps e.va e.size lo len)))

/-- The reserved bits of a page-table entry and the parts of ADDR that its kind wants zero (R413). -/
def pteReserved (e : Word64) (level1 : Bool) : Bool :=
  let ty := bits e 1 0
  decide (bits e 63 48 ≠ 0) || decide (bits e 11 4 ≠ 0) || bit e 2 || decide (ty = 3) || (decide (ty = 1) && !level1) ||
    (decide (ty = 2) && decide (bits e (if level1 then 29 else 20) 12 ≠ 0))

/-- What a walk answers: the mapping, or a status. -/
structure Walked where
  entry  : TlbEntry
  status : Status
  deriving DecidableEq, Repr

/-- No mapping. -/
def Walked.fail (st : Status) : Walked := ⟨⟨0, 0, 0, 0, false⟩, st⟩

/-- Read a table entry at its HBM home (R414 checks 1 and 2). -/
def State.readPte (s : State) (p a : Nat) : State × Word64 × Status :=
  if !s.inExtent p a 8 then (s, 0, 0x0F05)
  else
    let (s, b, st) := s.hbmRead a 8
    (s, BitVec.ofNat 64 (leNat (clean b)), if st = 0 then 0 else 0x0F04)

/-- A PAGE entry checked (R414 checks 5 and 6). -/
def State.walkPage (s : State) (p va pa size : Nat) (e : Word64) (wr : Bool) : Walked :=
  if !s.inExtent p pa size then Walked.fail 0x0F05
  else if wr && !bit e 3 then Walked.fail 0x0F02
  else ⟨⟨p, va / size * size, pa, size, bit e 3⟩, 0⟩

/-- Walk the tables of partition `p` for a virtual address of HBM space (R412 to R414). -/
def State.walk (s : State) (p va : Nat) (wr : Bool) : State × Walked :=
  let s := s.satInc (R.MMU_WALK_CNT p) 31 0
  let root := s.fld (R.MMU_ROOT p) 47 13 * 0x2000
  let (s, e1, st) := s.readPte p (root + 8 * (va / 0x4000_0000 % 1024))
  if st ≠ 0 then (s, Walked.fail st)
  else if pteReserved e1 true then (s, Walked.fail 0x0F03)
  else match bits e1 1 0 with
    | 0 => (s, Walked.fail 0x0F01)
    | 2 => (s, s.walkPage p va (bits e1 47 30 * 0x4000_0000) 0x4000_0000 e1 wr)
    | _ =>
      let (s, e2, st) := s.readPte p (bits e1 47 12 * 0x1000 + 8 * (va / 0x20_0000 % 512))
      if st ≠ 0 then (s, Walked.fail st)
      else if pteReserved e2 false then (s, Walked.fail 0x0F03)
      else if bits e2 1 0 = 0 then (s, Walked.fail 0x0F01)
      else (s, s.walkPage p va (bits e2 47 21 * 0x20_0000) 0x20_0000 e2 wr)

/-- A piece of a translated range: address and length, or the status of its failure. -/
structure Piece where
  pa     : Nat
  len    : Nat
  status : Status
  deriving DecidableEq, Repr

/-- Translate the piece of a range that lies in the page, or window, of its first byte (R411, R415). -/
def State.translateOne (s : State) (u : TlbUser) (p va len : Nat) (wr : Bool) : State × Piece :=
  if va < winBase then
    let piece (e : TlbEntry) : Piece := ⟨e.pa + (va - e.va), min len (e.va + e.size - va), 0⟩
    match (s.tlb u).find? (fun e => e.part == p && decide (e.va ≤ va) && decide (va < e.va + e.size)) with
    | some e =>
      let s := s.tlbUse u e
      if wr && !e.wr then (s, ⟨0, 0, 0x0F02⟩) else (s, piece e)
    | none =>
      let (s, w) := s.walk p va wr
      if w.status ≠ 0 then (s, ⟨0, 0, w.status⟩) else (s.tlbUse u w.entry, piece w.entry)
  else
    let off := (va - winBase) % 0x40_0000
    match s.partCore p ((va - winBase) / 0x40_0000) with
    | some k =>
      if (s.phys k).isSome ∧ off < padSize ∧ va < physBase then
        (s, ⟨winBase + k * 0x40_0000 + off, min len (0x40_0000 - off), 0⟩)
      else (s, ⟨0, 0, 0x0101⟩)
    | none => (s, ⟨0, 0, 0x0101⟩)

/-- Translate every page that a range touches (R415); the status is that of the first failure. -/
def State.translateAll (s : State) (u : TlbUser) (p : Nat) (wr : Bool) :
    Nat → Nat → Nat → State × List (Nat × Nat) × Nat × Status
  | _, va, 0 => (s, [], va, 0)
  | 0, va, _ => (s, [], va, 0x0101)
  | fuel + 1, va, len =>
    let (s1, x) := s.translateOne u p va len wr
    if x.status ≠ 0 then (s1, [], va, x.status)
    else
      let r := s1.translateAll u p wr fuel (va + x.len) (len - x.len)
      (r.1, (x.pa, x.len) :: r.2.1, r.2.2)

/-- Record a translation failure in MMU_FAULT_p (R415, R425). -/
def State.mmuFault (s : State) (p va agent : Nat) (st : Status) : State :=
  s.firstErr (R.MMU_FAULT p) (BitVec.ofNat 64 (st.toNat * 2 ^ 48 + va / 0x20_0000 % 2 ^ 27 * 2 ^ 21 + agent * 2 ^ 18))

/-- Translate a range for an agent; a failure is recorded (R415). The answer is the translated pieces and a status. -/
def State.translate (s : State) (u : TlbUser) (agent p va len : Nat) (wr : Bool) : State × List (Nat × Nat) × Status :=
  let (s, ps, bad, st) := s.translateAll u p wr (len / 0x20_0000 + 2) va len
  if st = 0 then (s, ps, 0) else (s.mmuFault p bad agent st, [], st)

/-! ## The checks of R38 -/

/-- Checks 1 to 3 of R38 on a range, for memory that is not a register. -/
def State.memAccess (s : State) (a : Agent) (addr len : Nat) : Status :=
  match s.regionOf addr len with
  | none => 0x0101
  | some .hbm => 0
  | some (.window _) => 0
  | some (.phys _) => if a = .fw 0 ∨ a ∈ s.diag then 0 else 0x0102
  | some .reg => 0x0102
  | some .fwPriv => match a with
    | .fw _ => 0
    | _ => 0x0102

/-- R38 on a translated range: the first check that a piece fails, and check 3 on the range, whose pieces lie in one
region. -/
def State.piecesAccess (s : State) (a : Agent) (ps : List (Nat × Nat)) : Status :=
  let sts := ps.map (fun x => s.memAccess a x.1 x.2)
  let regions := ps.map (fun x => s.regionOf x.1 x.2)
  if sts.contains 0x0101 then 0x0101
  else match sts.find? (· ≠ 0) with
    | some st => st
    | none => if regions.all (· == regions.headD none) then 0 else 0x0104

end Sys2Proof.Machine
end

