-- ==== Sys2Proof/Machine/Issue.lean ====
section
/-!
DEFINITION. The issue of an instruction (R151 to R161): what must hold before it issues, what a fault at issue does, and
how the PC, the issue counter and program order advance. Every instruction's meaning is written through `State.issue`.
-/

namespace Sys2Proof.Machine

/-- How an instruction leaves issue: with its effects, with a jump, with a fault (status, address, TRAP code), or not at
all because something it needs is not there yet (R155). -/
inductive Issued where
  | done (s : State)
  | jump (s : State) (pc : Nat)
  | fault (s : State) (st : Status) (addr code : Nat)
  | stall

/-- The first failing check, as a fault with no address. -/
def Issued.checked (s : State) (checks : List (Bool × Status)) (ok : Unit → Issued) : Issued :=
  match firstOf checks with
  | some st => .fault s st 0 0
  | none => ok ()

/-- Destination and first source register (R157). -/
def fRD (f : IBits) : Nat := bits f 55 51
def fRA (f : IBits) : Nat := bits f 50 46
def fRB (f : IBits) : Nat := bits f 45 41

/-- Fetch a row of the running context (R153): at most four rows stay, the newest ones. -/
def State.fetchRow (s : State) (k : Nat) (c : CtxId) (row : Nat) : State :=
  if (s.phys k).isNone ∨ row ≥ 0xC000 then s
  else
    let r := if s.owns k c.val (64 * row) 64 then
        let (s, b, st) := s.padRead k (64 * row) 64
        (s, (⟨row, st, clean b⟩ : FetchRow))
      else (s, ⟨row, 0x0102, []⟩)
    r.1.modCtx k c.val (fun t => { t with rows := (r.2 :: t.rows.filter (fun x => x.row ≠ row)).take 4 })

/-- The row of the PC as the fetch buffer holds it, fetched first where it is not there. -/
def State.withRow (s : State) (k : Nat) (c : CtxId) (pc : Nat) : State :=
  if ((s.ctx k c.val).rows.any (fun x => x.row == pc / 64)) then s else s.fetchRow k c (pc / 64)

/-- The status the PC's row is held with. -/
def State.rowStatus (s : State) (k : Nat) (c : CtxId) (pc : Nat) : Status :=
  match (s.ctx k c.val).rows.find? (fun x => x.row == pc / 64) with
  | some x => x.status
  | none => 0

/-- Advance after an instruction has issued. -/
def State.issued (s : State) (k : Nat) (c : CtxId) (pc : Nat) : State :=
  ((s.setPc k c.val pc).wrapInc (R.SEQ_ISSUE_CNT k) 63 0).modCore k (fun x => { x with seqNo := x.seqNo + 1 })

/-- A fault of the instruction at the PC (R161): nothing of the instruction happens. -/
def State.issueFault (s : State) (k : Nat) (c : CtxId) (op : Nat) (f : IBits) (unit : Nat) (st : Status) (addr code : Nat) :
    State :=
  s.faultCtx k c { unit := unit, status := st, seq := (s.core k).seqNo, pc := s.pc k c.val, code := code,
                   instr := instrWord op f, addr := addr }

/-- Whether core `k` can issue: bound, its window not held (R39, R498), its position awake, its running context in RUN or
STALL (R172). -/
def State.canIssue (s : State) (k : Nat) : Bool :=
  (s.phys k).isSome && !s.shut k && decide (s.seqState k (s.core k).run.val = 1 ∨ s.seqState k (s.core k).run.val = 2)

/-- The context waits under R155: its STATE is STALL (R172). -/
def State.stalled (s : State) (k : Nat) (c : CtxId) : State := s.setSeqState k c.val 2

/-- A context that waited under R155 goes on: its STATE is RUN again (R172). -/
def State.unstalled (s : State) (k : Nat) (c : CtxId) : State :=
  if s.seqState k c.val = 2 then s.setSeqState k c.val 1 else s

/-- EPOCH of a partition, 0 where there is none (R302). -/
def State.epochOf (s : State) (p : Option Nat) : BitVec 4 := match p with | some p => (s.part p).epoch | none => 0

/-- A late message (R303): dropped, counted and logged with its source, kind, identifier and both epochs. -/
def State.dropLate (s : State) (func core kind ident : Nat) (was now : BitVec 4) : State :=
  (s.satInc (R.FE_LATE_CNT func) 31 0).logEvent schedProc 0x0103 1 [core, kind, ident, was.toNat, now.toNat]

/-- An item of context `c` of core `k` stamped `e` arrives: `f` applies it where the stamp is the current EPOCH, else it is
late (R302, R303). -/
def State.ifCurrent (s : State) (k c kind ident : Nat) (e : BitVec 4) (f : State) : State :=
  match s.partOf k c with
  | some p => if e = (s.part p).epoch then f else s.dropLate (s.fld (R.MMU_PCFG p) 59 54) k kind ident e (s.part p).epoch
  | none => f

/-- The descriptor of a kernel sees an instruction of it issue first on a core (R260, R292): START is that of the earliest
core, and a first issue past T + 2 ns, or on a core that could not start at T, makes it late. -/
def State.noteFirst (s : State) (kn : Kernel) : State :=
  match s.fe.descs.find? (fun d => d.id = kn.desc) with
  | none => s
  | some d =>
    let past := match d.target with | some t => kn.late || decide (t.toNat + 0x200 < s.chorus.toNat) | none => false
    let start := match d.start with | some x => some x | none => some (s.viewNs kn.part)
    let s := s.setFe { s.fe with descs := s.fe.descs.map (fun x =>
      if x.id = kn.desc then { x with start := start, late := x.late || past } else x) }
    if past && !d.late then s.satInc R.CHR_LATE_CNT 31 0 else s

/-- The first instruction of a context's kernel issues. -/
def State.firstIssue (s : State) (k : Nat) (c : CtxId) : State :=
  match (s.ctx k c.val).kernel with
  | some kn =>
    if kn.begun then s
    else (s.modCtx k c.val (fun t => { t with kernel := some { kn with begun := true } })).noteFirst kn
  | none => s

/-- Issue the instruction with opcode `op` and bits `f` in the running context of core `k`. `regs` are the scalar
registers it reads or writes, `unit` the unit that reports its faults, `body` its checks and effects. An instruction that
cannot issue yet leaves its context in STALL (R155, R172). -/
def State.issue (s : State) (k : Nat) (op : Nat) (f : IBits) (unit : Nat) (regs : List Nat)
    (body : State → CtxId → Issued) : State :=
  let c := (s.core k).run
  if !s.canIssue k then s
  else
    let pc := s.pc k c.val
    if pc % 8 ≠ 0 then s.issueFault k c op f 1 0x0604 pc 0
    else if pc > 0x2F_FFF8 then s.issueFault k c op f 1 0x0101 pc 0
    else
      let s := s.withRow k c pc
      if s.rowStatus k c pc ≠ 0 then s.issueFault k c op f 1 (s.rowStatus k c pc) pc 0
      else if regs.any (fun r => (s.ctx k c.val).busy.contains r) then s.stalled k c
      else match body ((s.unstalled k c).firstIssue k c) c with
        | .done s' => s'.issued k c (pc + 8)
        | .jump s' pc' => s'.issued k c pc'
        | .fault s' st addr code => s'.issueFault k c op f unit st addr code
        | .stall => s.stalled k c

end Sys2Proof.Machine
end

