-- ==== Sys2Proof/Machine/Operands.lean ====
section
/-!
DEFINITION. Operand forms: the sequencer's R, I, L, B and T formats (R157, R160, R162 to R165), operand words of the
matrix array and vector engine (R71), and effective addresses.
-/

namespace Sys2Proof.Machine

/-- A signed field of an instruction, extended to 64 bits. -/
def sext64 (n x : Nat) : Word64 := BitVec.ofInt 64 (signed n x)

/-- IMM of the I format, sign-extended. -/
def fImmS (f : IBits) : Word64 := sext64 32 (bits f 31 0)

/-- IMM of the I format, zero-extended. -/
def fImmZ (f : IBits) : Word64 := BitVec.ofNat 64 (bits f 31 0)

/-- The effective address of SLD, SST, RLD and RST, computed in 64 bits (R163, R164). -/
def State.effAddr (s : State) (k c : Nat) (f : IBits) : Nat := (s.sreg k c (fRA f) + fImmS f).toNat

/-- Bytes that SIZE names (R157). -/
def fSize (f : IBits) : Nat := 2 ^ bits f 45 44

/-- The condition of a branch (R165). -/
def branchTaken (cond : Nat) (a b : Word64) (i : Nat) : Bool :=
  let x := f32 (bits a 31 0)
  let y := f32 (bits b 31 0)
  match cond with
  | 0 => true
  | 1 => decide (a = b)
  | 2 => decide (a ≠ b)
  | 3 => decide (a.toInt < b.toInt)
  | 4 => decide (b.toInt ≤ a.toInt)
  | 5 => decide (a.toNat < b.toNat)
  | 6 => decide (b.toNat ≤ a.toNat)
  | 7 => bit a i
  | 8 => !bit a i
  | 9 => Num.lt x y
  | 10 => Num.le y x
  | 11 => Num.eq x y
  | 12 => x.isNan || y.isNan
  | _ => false

/-- Three-register arithmetic (R162): RD takes `g` of RA and RB. -/
def State.aluR (s : State) (k op : Nat) (f : IBits) (g : Word64 → Word64 → Word64) : State :=
  s.issue k op f 1 [fRA f, fRB f, fRD f] fun s c =>
    Issued.checked s [(bits f 40 0 ≠ 0, 0x0602)] fun _ =>
      .done (s.setSreg k c.val (fRD f) (g (s.sreg k c.val (fRA f)) (s.sreg k c.val (fRB f))))

/-- Register and immediate arithmetic (R162); a shift wants IMM[31:6] zero (R159 check 2). -/
def State.aluI (s : State) (k op : Nat) (f : IBits) (shift : Bool) (g : Word64 → Word64) : State :=
  s.issue k op f 1 [fRA f, fRD f] fun s c =>
    Issued.checked s [(bits f 45 32 ≠ 0 || (shift && decide (bits f 31 6 ≠ 0)), 0x0602)] fun _ =>
      .done (s.setSreg k c.val (fRD f) (g (s.sreg k c.val (fRA f))))

/-- The target checks of a branch (R159 checks 4 and 5). -/
def targetChecks (t : Nat) (high : Bool) : List (Bool × Status) :=
  [(t % 8 ≠ 0, 0x0604), (high || decide (t > 0x2F_FFF8), 0x0101)]

/-- SST into a row that the fetch buffer holds invalidates it (R154). -/
def State.dropRows (s : State) (k : Nat) (c : CtxId) (off len : Nat) : State :=
  s.modCtx k c.val (fun t => { t with rows := t.rows.filter (fun x => !overlaps (64 * x.row) 64 off len) })

end Sys2Proof.Machine
end

