-- ==== Sys2Proof/Machine/Sequencer.lean ====
section
/-!
DEFINITION. The sequencer's own instructions (chapter 06), but for RLD and RST, and the events of its kernels.
-/

namespace Sys2Proof.Machine

/-- INSTRUCTION_FETCH (R153): the row joins the fetch buffer of the running context, held as failed when it cannot be
read. -/
def execInstructionFetch (k : CoreId) (row : BitVec 16) (s : State) : Out :=
  .next (s.fetchRow k.val (s.core k.val).run row.toNat)

/-- NOP (R158, R160). -/
def execNop (k : CoreId) (f : IBits) (s : State) : Out :=
  .next (s.issue k.val 0x01 f 1 [] fun s _ => Issued.checked s [(f.toNat ≠ 0, 0x0602)] fun _ => .done s)

/-- ADD (R162). -/
def execAdd (k : CoreId) (f : IBits) (s : State) : Out := .next (s.aluR k.val 0x08 f fun a b => a + b)

/-- SUB (R162). -/
def execSub (k : CoreId) (f : IBits) (s : State) : Out := .next (s.aluR k.val 0x09 f fun a b => a - b)

/-- AND (R162). -/
def execAnd (k : CoreId) (f : IBits) (s : State) : Out := .next (s.aluR k.val 0x0A f fun a b => a &&& b)

/-- OR (R162). -/
def execOr (k : CoreId) (f : IBits) (s : State) : Out := .next (s.aluR k.val 0x0B f fun a b => a ||| b)

/-- XOR (R162). -/
def execXor (k : CoreId) (f : IBits) (s : State) : Out := .next (s.aluR k.val 0x0C f fun a b => a ^^^ b)

/-- SHL (R158, R162). -/
def execShl (k : CoreId) (f : IBits) (s : State) : Out := .next (s.aluR k.val 0x0D f fun a b => a <<< bits b 5 0)

/-- SHRL (R158, R162). -/
def execShrl (k : CoreId) (f : IBits) (s : State) : Out := .next (s.aluR k.val 0x0E f fun a b => a >>> bits b 5 0)

/-- SHRA (R158, R162). -/
def execShra (k : CoreId) (f : IBits) (s : State) : Out := .next (s.aluR k.val 0x0F f fun a b => a.sshiftRight (bits b 5 0))

/-- MUL (R158, R162): the low 64 bits of the product. -/
def execMul (k : CoreId) (f : IBits) (s : State) : Out := .next (s.aluR k.val 0x10 f fun a b => a * b)

/-- MIN, signed (R158). -/
def execMin (k : CoreId) (f : IBits) (s : State) : Out :=
  .next (s.aluR k.val 0x11 f fun a b => if b.toInt < a.toInt then b else a)

/-- MAX, signed (R158). -/
def execMax (k : CoreId) (f : IBits) (s : State) : Out :=
  .next (s.aluR k.val 0x12 f fun a b => if a.toInt < b.toInt then b else a)

/-- MINU (R158). -/
def execMinu (k : CoreId) (f : IBits) (s : State) : Out :=
  .next (s.aluR k.val 0x13 f fun a b => if b.toNat < a.toNat then b else a)

/-- MAXU (R158). -/
def execMaxu (k : CoreId) (f : IBits) (s : State) : Out :=
  .next (s.aluR k.val 0x14 f fun a b => if a.toNat < b.toNat then b else a)

/-- SLT, signed (R158). -/
def execSlt (k : CoreId) (f : IBits) (s : State) : Out :=
  .next (s.aluR k.val 0x15 f fun a b => if a.toInt < b.toInt then 1 else 0)

/-- SLTU (R158). -/
def execSltu (k : CoreId) (f : IBits) (s : State) : Out :=
  .next (s.aluR k.val 0x16 f fun a b => if a.toNat < b.toNat then 1 else 0)

/-- ADDI, IMM sign-extended (R158). -/
def execAddi (k : CoreId) (f : IBits) (s : State) : Out := .next (s.aluI k.val 0x18 f false fun a => a + fImmS f)

/-- ANDI, IMM zero-extended (R158). -/
def execAndi (k : CoreId) (f : IBits) (s : State) : Out := .next (s.aluI k.val 0x19 f false fun a => a &&& fImmZ f)

/-- ORI, IMM zero-extended (R158). -/
def execOri (k : CoreId) (f : IBits) (s : State) : Out := .next (s.aluI k.val 0x1A f false fun a => a ||| fImmZ f)

/-- XORI, IMM zero-extended (R158). -/
def execXori (k : CoreId) (f : IBits) (s : State) : Out := .next (s.aluI k.val 0x1B f false fun a => a ^^^ fImmZ f)

/-- SHLI (R158). -/
def execShli (k : CoreId) (f : IBits) (s : State) : Out := .next (s.aluI k.val 0x1C f true fun a => a <<< bits f 5 0)

/-- SHRLI (R158). -/
def execShrli (k : CoreId) (f : IBits) (s : State) : Out := .next (s.aluI k.val 0x1D f true fun a => a >>> bits f 5 0)

/-- SHRAI (R158). -/
def execShrai (k : CoreId) (f : IBits) (s : State) : Out :=
  .next (s.aluI k.val 0x1E f true fun a => a.sshiftRight (bits f 5 0))

/-- SLTI, signed against the sign-extended IMM (R158). -/
def execSlti (k : CoreId) (f : IBits) (s : State) : Out :=
  .next (s.aluI k.val 0x1F f false fun a => if a.toInt < (fImmS f).toInt then 1 else 0)

/-- LIL (R158): IMM sign-extended from bit 47. -/
def execLil (k : CoreId) (f : IBits) (s : State) : Out :=
  .next (s.issue k.val 0x20 f 1 [fRD f] fun s c =>
    Issued.checked s [(bits f 50 48 ≠ 0, 0x0602)] fun _ =>
      .done (s.setSreg k.val c.val (fRD f) (sext64 48 (bits f 47 0))))

/-- LIH (R158, R160): RD[63:48] takes IMM[15:0]. -/
def execLih (k : CoreId) (f : IBits) (s : State) : Out :=
  .next (s.issue k.val 0x21 f 1 [fRD f] fun s c =>
    Issued.checked s [(bits f 50 16 ≠ 0, 0x0602)] fun _ =>
      .done (s.setSreg k.val c.val (fRD f) (setBits (s.sreg k.val c.val (fRD f)) 63 48 (bits f 15 0))))

/-- The fields of B that its condition leaves unused and that are not zero (R160, R165). -/
def branchUnused (f : IBits) : Bool :=
  let cond := bits f 50 47
  decide (fRD f ≠ 0) || decide (bits f 30 22 ≠ 0) ||
    (decide (cond = 0) && (decide (bits f 46 42 ≠ 0) || decide (bits f 41 37 ≠ 0))) ||
    (decide (cond ≠ 7) && decide (cond ≠ 8) && decide (bits f 36 31 ≠ 0)) ||
    ((decide (cond = 7) || decide (cond = 8)) && decide (bits f 41 37 ≠ 0))

/-- B (R158, R165): the target is checked whether or not the branch is taken. -/
def execB (k : CoreId) (f : IBits) (s : State) : Out :=
  .next (s.issue k.val 0x28 f 1 [bits f 46 42, bits f 41 37] fun s c =>
    Issued.checked s
      ([(branchUnused f, 0x0602), (decide (bits f 50 47 ≥ 13), 0x0603)] ++ targetChecks (bits f 21 0) false) fun _ =>
      if branchTaken (bits f 50 47) (s.sreg k.val c.val (bits f 46 42)) (s.sreg k.val c.val (bits f 41 37)) (bits f 36 31)
      then .jump s (bits f 21 0) else .done s)

/-- BL (R158): RD takes PC + 8. -/
def execBl (k : CoreId) (f : IBits) (s : State) : Out :=
  .next (s.issue k.val 0x29 f 1 [fRD f] fun s c =>
    Issued.checked s ([(decide (bits f 50 22 ≠ 0), 0x0602)] ++ targetChecks (bits f 21 0) false) fun _ =>
      .jump (s.setSreg k.val c.val (fRD f) (BitVec.ofNat 64 (s.pc k.val c.val + 8))) (bits f 21 0))

/-- BX (R158): the target is RA[21:0], read before RD is written. -/
def execBx (k : CoreId) (f : IBits) (s : State) : Out :=
  .next (s.issue k.val 0x2A f 1 [fRD f, bits f 46 42] fun s c =>
    let t := s.sreg k.val c.val (bits f 46 42)
    Issued.checked s ([(decide (bits f 50 47 ≠ 0) || decide (bits f 41 0 ≠ 0), 0x0602)] ++
        targetChecks (bits t 21 0) (decide (bits t 63 22 ≠ 0))) fun _ =>
      .jump (s.setSreg k.val c.val (fRD f) (BitVec.ofNat 64 (s.pc k.val c.val + 8))) (bits t 21 0))

/-- SLD (R159, R163). -/
def execSld (k : CoreId) (f : IBits) (s : State) : Out :=
  .next (s.issue k.val 0x30 f 1 [fRD f, fRA f] fun s c =>
    let a := s.effAddr k.val c.val f
    let n := fSize f
    Issued.checked s
      [(bits f 42 32 ≠ 0, 0x0602), (bit f 43 && decide (n = 8), 0x0603), (a % n ≠ 0, 0x0604), (a + n > padSize, 0x0101),
       (!s.owns k.val c.val a n, 0x0102)] fun _ =>
      let (s1, d, st) := s.padRead k.val a n
      if st ≠ 0 then .fault s1 st a 0
      else
        let x := leNat (clean d)
        .done (s1.setSreg k.val c.val (fRD f) (if bit f 43 then sext64 (8 * n) x else BitVec.ofNat 64 x)))

/-- SST (R159, R163, R154): the low SIZE bytes of RD; a merge into a word that cannot be read faults (R186). -/
def execSst (k : CoreId) (f : IBits) (s : State) : Out :=
  .next (s.issue k.val 0x31 f 1 [fRD f, fRA f] fun s c =>
    let a := s.effAddr k.val c.val f
    let n := fSize f
    Issued.checked s
      [(bits f 43 32 ≠ 0, 0x0602), (a % n ≠ 0, 0x0604), (a + n > padSize, 0x0101),
       (!s.owns k.val c.val a n, 0x0102)] fun _ =>
      let (s1, ok) := s.padWrite k.val a (carried (leBytes n (s.sreg k.val c.val (fRD f)).toNat))
      if ok then .done (s1.dropRows k.val c a n) else .fault s 0x0705 a 0)

/-- TIME (R160, R167): whole nanoseconds of the partition's view, or the fraction. -/
def execTime (k : CoreId) (f : IBits) (s : State) : Out :=
  .next (s.issue k.val 0x38 f 1 [fRD f] fun s c =>
    Issued.checked s [(bits f 50 46 ≠ 0 || decide (bits f 44 0 ≠ 0), 0x0602)] fun _ =>
      .done (s.setSreg k.val c.val (fRD f)
        (if bit f 45 then BitVec.ofNat 64 (bits s.chorus 7 0)
         else BitVec.ofNat 64 (s.viewNs (s.partOf k.val c.val)))))

/-- The target of a LAUNCH_AT as chip Chorus in 1/256 ns (R168, R407). -/
def State.launchTarget (s : State) (k c : Nat) (f : IBits) : Nat :=
  s.fromView (s.partOf k c) (s.sreg k c (fRA f)).toNat * 256 + bits f 45 38

/-- A release of a LAUNCH_AT (R168, R169): RD takes the whole nanoseconds, a late one is marked and counted. -/
def State.launchRelease (s : State) (k c rd : Nat) (late : Bool) : State :=
  let s := s.setSreg k c rd (BitVec.ofNat 64 (s.viewNs (s.partOf k c)))
  if late then (s.setBitOf (R.SEQ_STATE k c) 8).satInc (R.SEQ_LATE_CNT k c) 31 0 else s

/-- LAUNCH_AT (R168). A target that has come releases at once, late when it has passed. -/
def execLaunchAt (k : CoreId) (f : IBits) (s : State) : Out :=
  .next (s.issue k.val 0x39 f 1 [fRD f, fRA f] fun s c =>
    let t := s.launchTarget k.val c.val f
    let now := s.chorus.toNat
    Issued.checked s [(bits f 37 0 ≠ 0, 0x0602), (decide (t > now + 2 ^ 32 * 256), 0x0605)] fun _ =>
      if t > now then
        .done ((s.modCtx k.val c.val (fun x => { x with launch := some ⟨BitVec.ofNat 72 t, fRD f, false⟩ })).setSeqState k.val c.val 4)
      else .done (s.launchRelease k.val c.val (fRD f) (decide (t < now))))

/-- LAUNCH_RELEASE (R168, R169): in the running context, once Chorus has reached the target. It is late past T + 2 ns, where
the context did not run at T, and where T fell in a relock of the die (R256, R258). -/
def execLaunchRelease (k : CoreId) (c : CtxId) (s : State) : Out :=
  .next (match (s.ctx k.val c.val).launch with
    | some l =>
      if l.target ≤ s.chorus ∧ (s.core k.val).run = c ∧ s.seqState k.val c.val = 4 ∧ s.relocks (s.coreDie k.val) = false then
        let s := (s.modCtx k.val c.val (fun x => { x with launch := none })).gated k.val
        (s.launchRelease k.val c.val l.rd (l.late || decide (l.target.toNat + 0x200 < s.chorus.toNat))).setSeqState k.val c.val 1
      else s
    | none => s)

/-- END (R170): the context stops issuing and is ENDING. -/
def execEndKernel (k : CoreId) (f : IBits) (s : State) : Out :=
  .next (s.issue k.val 0x3A f 1 [] fun s c =>
    Issued.checked s [(f.toNat ≠ 0, 0x0602)] fun _ => .done (s.setSeqState k.val c.val 5))

/-- Whether a context has work left in a queue or a response to come (R170). -/
def CoreState.workLeft (x : CoreState) (c : CtxId) : Bool :=
  x.mq.any (fun e => e.ctx = c) || x.vq.any (fun e => e.ctx = c) || x.dq.any (fun e => e.ctx = c) ||
    !(x.ctx c.val).counts.isEmpty

/-- A core reports the end of its kernel to the front end (R291): the descriptor has one core less to wait for. -/
def State.coreDone (s : State) (k c : Nat) : State :=
  match (s.ctx k c).kernel with
  | some kn =>
    s.ifCurrent k c 0 kn.desc kn.epoch
      (s.setFe { s.fe with descs := s.fe.descs.map (fun (d : Desc) =>
          if d.id = kn.desc then { d with left := d.left.filter (· ≠ k) }
          else d) })
  | none => s

/-- KERNEL_COMPLETE (R170): once every queue of the context is empty, its kernel has ended. -/
def execKernelComplete (k : CoreId) (c : CtxId) (s : State) : Out :=
  .next (if s.seqState k.val c.val = 5 ∧ (s.core k.val).workLeft c = false then
      ((s.coreDone k.val c.val).modCtx k.val c.val (fun t => { t with kernel := none })).setSeqState
        k.val c.val 0
    else s)

/-- TRAP (R171). -/
def execTrap (k : CoreId) (f : IBits) (s : State) : Out :=
  .next (s.issue k.val 0x3B f 1 [] fun s _ =>
    Issued.checked s [(bits f 55 16 ≠ 0, 0x0602)] fun _ => .fault s 0x0606 0 (bits f 15 0))

/-- The status of an opcode that R158 marks reserved: GS_0301 in the matrix range, GS_0501 in the vector range, else
GS_0601. -/
def opcodeStatus (op : Nat) : Option Status :=
  let between (lo hi : Nat) : Bool := decide (lo ≤ op) && decide (op ≤ hi)
  if between 0x44 0x4F then some 0x0301
  else if between 0x59 0x5F then some 0x0501
  else if op = 0 ∨ between 0x02 0x07 ∨ op = 0x17 ∨ between 0x22 0x27 ∨ between 0x2B 0x2F ∨ between 0x34 0x37 ∨
      between 0x3C 0x3F ∨ between 0x64 0x6F ∨ between 0x75 0x7F ∨ between 0x84 0x8F ∨ 0x92 ≤ op then some 0x0601
  else none

/-- The unit that reports an opcode of R158: the matrix array and the vector engine their own ranges (R305). -/
def opcodeUnit (op : Nat) : Nat := if op / 16 = 4 then 2 else if op / 16 = 5 then 3 else 1

/-- The sequencer issues an instruction word (R158, R159 check 1): a reserved opcode faults and does nothing else. Words of
the defined opcodes are the commands of their own rows. -/
def State.issueWord (s : State) (k : Nat) (w : Word64) : State :=
  let op := bits w 63 56
  match opcodeStatus op with
  | some st => s.issue k op (BitVec.ofNat 56 (bits w 55 0)) (opcodeUnit op) [] (fun s _ => .fault s st 0 0)
  | none => s

/-- CONTEXT_FAULT (R158, R161, R305): an instruction word with a reserved opcode reaches issue in the running context, which the
word alone decides; or a unit of R305 reports a fault of a context's instruction by its place in program order. -/
def execContextFault (k : CoreId) (c : CtxId) (unit : Fin 8) (st : Status) (addr : Word64) (place : FaultAt) (s : State) : Out :=
  .next (match place with
    | .word w => s.issueWord k.val w
    | .place seq =>
      if unit = 0 ∨ st = 0 then s
      else
        let i := s.instrAt k.val c seq
        s.faultCtx k.val c { unit := unit.val, status := st, seq := seq, pc := i.1, instr := i.2, addr := addr.toNat })

end Sys2Proof.Machine
end

