-- ==== Sys2Proof/Machine/Net.lean ====
section
/-!
DEFINITION. What units share when they reach memory that is not their own: routing (R315, R316), accesses at their homes
(R205), the inbound engine's checks and grants (R181, R194 to R199), at-memory operations (R191, R192), responses and
message ages (R222).
-/

namespace Sys2Proof.Machine

/-! ## Chip ids and routing (R315, R316) -/

/-- Torus width. -/
def State.xdim (s : State) : Nat := s.fld R.LNK_TOPO 55 42 + 1

/-- Torus height. -/
def State.ydim (s : State) : Nat := s.fld R.LNK_TOPO 41 28 + 1

/-- The chip's own id (R315). -/
def State.chipId (s : State) : Nat := (s.fld R.LNK_TOPO 13 0 * s.xdim + s.fld R.LNK_TOPO 27 14) % 2 ^ 14

/-- The links of port `p`. -/
def State.linksOf (s : State) (p : Nat) : List Nat := (List.range 16).filter (fun l => s.bitOf (R.LNK_PORT p) (16 + l))

/-- The port that an enabled override entry names for a chip id, the lowest-numbered entry first. -/
def State.ovrPort (s : State) (c : Nat) : Option Nat :=
  ((List.range 32).find? (fun i => s.bitOf (R.LNK_OVR i) 63 && decide (s.fld (R.LNK_OVR i) 13 0 ≤ c) &&
    decide (c ≤ s.fld (R.LNK_OVR i) 29 16))).map (fun i => s.fld (R.LNK_OVR i) 33 32)

/-- The port with a direction. -/
def State.dirPort (s : State) (d : Nat) : Option Nat := (List.range 4).find? (fun p => s.fld (R.LNK_PORT p) 15 13 = d)

/-- The shorter way round a ring of `n`, the rising one on a tie. -/
def risingWay (src dst n : Nat) : Bool := decide ((dst + n - src) % n ≤ (src + n - dst) % n)

/-- The direction of dimension order: 1 +X, 2 −X, 3 +Y, 4 −Y. -/
def State.dimDir (s : State) (c : Nat) : Nat :=
  let x := s.fld R.LNK_TOPO 27 14
  let y := s.fld R.LNK_TOPO 13 0
  if c % s.xdim ≠ x then (if risingWay x (c % s.xdim) s.xdim then 1 else 2)
  else if risingWay y (c / s.xdim) s.ydim then 3 else 4

/-- The port by which a packet for another chip leaves (R316 steps 2 and 3). -/
def State.outPort (s : State) (c : Nat) : Option Nat :=
  match s.ovrPort c with
  | some p => some p
  | none => s.dirPort (s.dimDir c)

/-- Whether a chip id is present in the routing table (R316). -/
def State.routable (s : State) (c : Nat) : Bool :=
  c == s.chipId || (decide (c < s.xdim * s.ydim) &&
    (match s.outPort c with
     | some p => !(s.linksOf p).isEmpty
     | none => false))

/-! ## Ports (R313, R314) -/

/-- The port that names a link (R313). -/
def State.linkPort (s : State) (l : Nat) : Option Nat := (List.range 4).find? (fun p => s.bitOf (R.LNK_PORT p) (16 + l))

/-- The UP links of a port. -/
def State.upLinks (s : State) (p : Nat) : List Nat := (s.linksOf p).filter (fun l => s.linkState l == 3)

/-- Partner chip and generation of a port: those of its UP links (R314). -/
def State.portPartner (s : State) (p : Nat) : Option (Nat × Nat) :=
  ((s.upLinks p).head?).map (fun l => (s.fld (R.LNK_STAT l) 47 34, s.fld (R.LNK_STAT l) 59 58))

/-! ## Sizes on the network (R25) -/

/-- The payloads of the packets that carry `n` bytes: 64 to 512 B each (R25). -/
def netPackets (n : Nat) : List Nat :=
  List.replicate (n / 512) 512 ++ (if n % 512 = 0 ∧ n ≠ 0 then [] else [max 64 (n % 512)])

/-- Bytes that a message carries. -/
def msgBytes : Packet → Nat
  | .put m _ => m.data.length
  | .write m _ => m.data.length
  | .engine _ _ m => (match m.kind with
    | .data _ _ b _ => b.length
    | _ => 0)
  | _ => 0

/-- Payload bytes of a message's packets (R25, R318). -/
def netBytes (x : Packet) : Nat := (netPackets (msgBytes x)).foldl (· + ·) 0

/-! ## Age (R222) -/

/-- The age stamp of a message issued now: Chorus in µs, modulo 2^24. -/
def State.stamp (s : State) : Nat := s.chorusNs / 1000 % 2 ^ 24

/-- AGE of core `k` in µs (R230). -/
def State.ageLimit (s : State) (k : Nat) : Nat := min 10000 (max 100 (s.fld (R.SP_XFER_CFG k) 15 0))

/-- The age of a message; a stamp ahead of Chorus, as after a step backward, has age 0 (R258). -/
def State.ageOf (s : State) (stamp : Nat) : Nat :=
  let d := (s.chorusNs / 1000 + (2 ^ 24 - stamp % 2 ^ 24)) % 2 ^ 24
  if 2 ^ 23 ≤ d then 0 else d

/-- Whether a message is too old for core `k`. -/
def State.tooOld (s : State) (k stamp : Nat) : Bool := decide (s.ageLimit k < s.ageOf stamp)

/-! ## Accesses at their homes (R205) -/

/-- The slot that a position is bound to. -/
def State.slotOf (s : State) (p : Nat) : Option Nat := (List.range s.variant.cores).find? (fun k => s.phys k = some p)

/-- Read `len` bytes at a chip-local address of memory: bytes and status. -/
def State.memRead (s : State) (a len : Nat) : State × List TByte × Status :=
  match s.regionOf a len with
  | some .hbm => s.hbmRead a len
  | some (.window k) => s.padRead k (winOff a) len
  | some (.phys p) => s.padReadP (s.slotOf p) p (winOff a) len
  | _ => (s, List.replicate len none, 0x0101)

/-- Write bytes at a chip-local address of memory: GS_0705 where a scratchpad word refused a merge (R186), or HBM's
status (R383). -/
def State.memWrite (s : State) (a : Nat) (d : List TByte) : State × Status :=
  match s.regionOf a d.length with
  | some .hbm => s.hbmWrite a d
  | some (.window k) =>
    let (s, ok) := s.padWrite k (winOff a) d
    (s, if ok then 0 else 0x0705)
  | some (.phys p) =>
    let (s, ok) := s.padWriteP p (winOff a) d
    (s, if ok then 0 else 0x0705)
  | _ => (s, 0x0101)

/-- Read translated pieces in order: the bytes, and the first status other than GS_0000. -/
def State.piecesRead (s : State) : List (Nat × Nat) → State × List TByte × Status
  | [] => (s, [], 0)
  | (a, n) :: r =>
    let (s, d, st) := s.memRead a n
    let x := s.piecesRead r
    (x.1, d ++ x.2.1, if st = 0 then x.2.2 else st)

/-- Write bytes to translated pieces in order: the first status other than GS_0000. -/
def State.piecesWrite (s : State) (d : List TByte) : List (Nat × Nat) → State × Status
  | [] => (s, 0)
  | (a, n) :: r =>
    let (s, st) := s.memWrite a (d.take n)
    let x := s.piecesWrite (d.drop n) r
    (x.1, if st = 0 then x.2 else st)

/-- Pieces of an access that lie in a sleeping stack (R458). -/
def State.pieceStacks (s : State) (ps : List (Nat × Nat)) : Bool :=
  ps.any (fun x => s.regionOf x.1 x.2 == some .hbm && s.stackSleeps x.1 x.2)

/-! ## Ownership at the inbound engine (R181, R406) -/

/-- Whether every segment that a range of core `k` touches belongs to a context of partition `part`, or, for the firmware
binding, to a context that no partition holds (R181, R236). -/
def State.boundOwns (s : State) (k off len : Nat) (part : Option Nat) : Bool :=
  (segsOf off len).all (fun g =>
    match s.segOwner k g with
    | some c => s.partOf k c = part
    | none => false)

/-- The partition whose JOB a message carries (R406). -/
def State.jobPart (s : State) (job : Nat) : Option Nat :=
  partIds.find? (fun p => s.bitOf (R.MMU_PCFG p) 63 && decide (s.fld (R.MMU_PJOB p) 15 0 = job))

/-- What a message's JOB and CORE reach: the binding and the logical core, or GS_0101 (R209, R406, R236). -/
def State.target (s : State) (job : Option (BitVec 16)) (core : Nat) : Except Status (Option Nat × Nat) :=
  let here (b : Option Nat) (k : Nat) : Except Status (Option Nat × Nat) :=
    if (s.phys k).isSome then .ok (b, k) else .error 0x0101
  match job with
  | none => here none core
  | some j =>
    match s.jobPart j.toNat with
    | none => .error 0x0101
    | some p =>
      match s.partCore p core with
      | some k => here (some p) k
      | none => .error 0x0101

/-! ## Credit units and grants (R195 to R199) -/

/-- State of unit `u` of core `k`. -/
def CoreState.unit (x : CoreState) (u : Nat) : UnitSt := Sparse.get (fun _ => UnitSt.idle) x.units u

/-- Put a unit into a state. -/
def CoreState.setUnit (x : CoreState) (u : Nat) (v : UnitSt) : CoreState :=
  { x with units := Sparse.set (fun _ => UnitSt.idle) x.units u v }

/-- Change the units of a run. -/
def CoreState.mapUnits (x : CoreState) (first n : Nat) (f : UnitSt → UnitSt) : CoreState :=
  ((List.range n).map (· + first)).foldl (fun x u => x.setUnit u (f (x.unit u))) x

/-- Grant entry `i`. -/
def CoreState.grant (x : CoreState) (i : Nat) : Grant := Sparse.get (fun _ => Grant.reset) x.grants i

/-- Put a grant entry. -/
def CoreState.setGrant (x : CoreState) (i : Nat) (g : Grant) : CoreState :=
  { x with grants := Sparse.set (fun _ => Grant.reset) x.grants i g }

/-- The end of a grant (R198): its units become HELD and its generation advances. -/
def State.endGrant (s : State) (k i : Nat) : State :=
  let g := (s.core k).grant i
  if g.used = false then s
  else s.modCore k (fun x =>
    (x.mapUnits g.first g.count (fun u => if u = .granted then .held else u)).setGrant i
      { g with used := false, src := none, gen := g.gen + 1, freedAt := some s.ns })

/-- End every grant of core `k` that `p` accepts. -/
def State.endGrants (s : State) (k : Nat) (p : Grant → Bool) : State :=
  (List.range 256).foldl (fun s i => if p ((s.core k).grant i) then s.endGrant k i else s) s

/-- Every grant of this chip whose source is context `c` of core `k` is revoked (R198). -/
def State.revokeFrom (s : State) (k : CoreId) (c : CtxId) : State :=
  s.cores.foldl (fun s x => s.endGrants x.1 (fun g => g.used && decide (g.src = some ⟨BitVec.ofNat 14 s.chipId, k, c⟩))) s

/-- The entry that a new grant takes: the one free longest, never one free for less than 1 ms (R199). -/
def State.freeGrant (s : State) (k : Nat) : Option Nat :=
  let x := s.core k
  let key : Nat → Nat := fun i => match (x.grant i).freedAt with | none => 0 | some t => t + 1
  let ok := (List.range 256).filter (fun i => !(x.grant i).used && (match (x.grant i).freedAt with
    | none => true
    | some t => decide (t + 1000000 ≤ s.ns)))
  ok.foldl (fun (b : Option Nat) i => match b with
    | none => some i
    | some j => if key i < key j then some i else b) none

/-- Whether an entry still holds the grant that a message of this generation and source was sent under. -/
def CoreState.grantIs (x : CoreState) (tag : Nat) (gen : BitVec 4) (src : Source) : Bool :=
  let g := x.grant tag
  g.used && decide (g.gen = gen) && decide (g.lf = false) && decide (g.src = some src)

/-- Whether a write passes R197: the grant is live, of this generation and source, and holds every byte. -/
def CoreState.grantOk (x : CoreState) (tag : Nat) (gen : BitVec 4) (src : Source) (lf : Bool) (off len : Nat) : Bool :=
  let g := x.grant tag
  g.used && decide (g.gen = gen) && decide (g.lf = lf) && decide (g.src = some src) &&
    (decide (len = 0) || (decide (g.first * 4096 ≤ off) && decide (off + len ≤ (g.first + g.count) * 4096)))

/-- The longest run of FREE units from `u`, at most `n`, in segments of context `c` (R196). -/
def State.freeRun (s : State) (k c : Nat) : Nat → Nat → Nat
  | _, 0 => 0
  | u, n + 1 =>
    if u < 768 ∧ (s.core k).unit u = .free ∧ s.segOwner k (u / 16) = some c then s.freeRun k c (u + 1) n + 1 else 0

/-- The inbound engine of core `k` answers a request for `n` units from unit `u` (R196): the response word. -/
def State.makeGrant (s : State) (k u n : Nat) (part : Option Nat) (src : Source) (lf : Bool) : State × Word64 :=
  let no (st : Nat) : State × Word64 := (s, BitVec.ofNat 64 (st * 2 ^ 48))
  if u ≥ 768 ∨ s.boundOwns k (u * 4096) 1 part = false then no 0x0102
  else if (s.core k).unit u ≠ .free then no 0x070A
  else match s.freeGrant k, s.segOwner k (u / 16) with
    | some i, some c =>
      let run := s.freeRun k c u n
      let g := (s.core k).grant i
      let s := s.modCore k (fun x => (x.mapUnits u run (fun _ => .granted)).setGrant i
        { g with used := true, src := some src, lf := lf, first := u, count := run, madeAt := s.ns,
                 lease := s.fld (R.SP_CREDIT_CFG k) 31 16 })
      (s, BitVec.ofNat 64 (run * 2 ^ 32 + g.gen.toNat * 2 ^ 12 + i))
    | _, _ => no 0x070B

/-- The units of a run that lie in segments of context `c` change state (R195). -/
def State.setUnits (s : State) (k first n : Nat) (f : UnitSt → UnitSt) : State :=
  s.modCore k (fun x => x.mapUnits first n f)

/-! ## Counters (R191, R192) -/

/-- The value of a counter whose old bytes were `old`: plus the increment, wrapping. -/
def countNew (n old : Nat) (exp : Option Nat) (inc : Nat) : Nat :=
  match exp with
  | some e => if e % 2 ^ (8 * n) = old then (old + inc) % 2 ^ (8 * n) else old
  | none => (old + inc) % 2 ^ (8 * n)

/-- Watches of core `k` whose counters an operation on a range has left at or above their thresholds fire (R192). -/
def State.fireWatches (s : State) (k off n : Nat) : State :=
  let pad := s.padOf k
  let hit (w : Watch) : Bool := overlaps w.off w.size off n && decide (pad.readStatus w.off w.size = 0) &&
    decide (w.thr ≤ signed (8 * w.size) (leNat (clean (pad.readBytes w.off w.size))))
  (List.range 4).foldl (fun s c =>
    let ws := (s.ctx k c).watches
    let s := (ws.filter hit).foldl (fun s w => s.setFlag k w.flag) s
    s.modCtx k c (fun t => { t with watches := ws.filter (fun w => !hit w) })) s

/-- COUNT or CCOUNT at a chip-local address of memory (R191): the old value sign-extended, and a status; with a status
the counter does not change. -/
def State.countAt (s : State) (a n : Nat) (exp : Option Nat) (inc : Nat) : State × Word64 × Status :=
  let (s, d, st) := s.memRead a n
  if st ≠ 0 then (s, 0, st)
  else
    let old := leNat (clean d)
    let (s, _) := s.memWrite a (carried (leBytes n (countNew n old exp inc)))
    let s := match s.regionOf a n with
      | some (.window k) => s.fireWatches k (winOff a) n
      | some (.phys p) => (match s.slotOf p with | some k => s.fireWatches k (winOff a) n | none => s)
      | _ => s
    (s, sext64 (8 * n) old, 0)

/-! ## Messages -/

/-- The chip, core and context as a source (R196). -/
def State.self (s : State) (k : CoreId) (c : CtxId) : Source := ⟨BitVec.ofNat 14 s.chipId, k, c⟩

/-- The warden of a core's cluster (R429). -/
def State.warden (s : State) (k : Nat) : Nat := 3 + s.cluster k

/-- The response of a transfer: it waits in its entry on this chip, or travels to another (R206, R213). -/
def State.respond (s : State) (dst : Source) (xfer : Nat) (st : Status) (data : List TByte) : State :=
  if dst.chip.toNat = s.chipId then
    s.modCore dst.core.val (fun x => { x with dq := x.dq.map (fun e =>
      if e.ctx = dst.ctx ∧ e.seq = xfer ∧ e.resp = none then { e with resp := some st, data := data } else e) })
  else (s.setNet (s.net ++ [.resp dst xfer st 0 s.stamp]))

/-- A packet leaves the network. -/
def State.taken (s : State) (p : Packet) : State := (s.setNet (s.net.erase p))

/-- Whether a packet answers message `xfer` of a source. -/
def answersXfer (dst : Source) (xfer : Nat) : Packet → Bool
  | .resp d x _ _ _ => decide (d = dst) && x == xfer
  | _ => false

/-- The answer to message `xfer` of a source that waits in the network leaves it: status, word and age stamp. -/
def State.takeAnswer (s : State) (src : Source) (xfer : Nat) : Option (State × Status × Word64 × Nat) :=
  match s.net.find? (answersXfer src xfer) with
  | some (.resp d x st w a) => some (s.taken (.resp d x st w a), st, w, a)
  | _ => none

/-- A source as the log names it (R447): chip, core, context. -/
def srcLog (x : Source) : List Nat := [x.chip.toNat, x.core.val, x.ctx.val]

end Sys2Proof.Machine
end

