-- ==== Sys2Proof/Machine/Timebase.lean ====
section
/-!
DEFINITION. Chorus (chapter 10): the edge, steps, discipline by beacons. Commits and barriers lie with the units they touch.
-/

namespace Sys2Proof.Machine

/-! ## The counter (R253, R257, R258) -/

/-- Add a signed amount in 1/256 ns to Chorus, modulo 2^72. -/
def addChorus (t : Chorus) (d : Int) : Chorus := BitVec.ofInt 72 ((t.toNat : Int) + d)

/-- One TCLK edge (R253, R257): Chorus takes 1 ns, or a slew edge's amount. -/
def State.edge (s : State) : State :=
  let c := s.chr
  if c.slewWait = 0 ∧ c.slew ≠ 0 then
    let up := decide (0 < c.slew)
    { s with
      chorus := addChorus s.chorus (if up then 0x101 else 0x0FF)
      chr := { c with slew := if up then c.slew - 1 else c.slew + 1, slewWait := 15 } }
  else
    { s with chorus := addChorus s.chorus 0x100, chr := { c with slewWait := c.slewWait - 1 } }

/-- One nanosecond of TCLK's reference (R33, R257): one TCLK edge, and, when the trim has gained or lost a whole edge, one
more or none. -/
def State.tclk (s : State) : State :=
  let x := s.chr.phase + s.chr.trim
  let turn (s : State) (p : Int) : State := { s with ns := s.ns + 1, chr := { s.chr with phase := p } }
  if 2 ^ 32 ≤ x then turn s.edge.edge (x - 2 ^ 32)
  else if x ≤ -(2 ^ 32) then turn s (x + 2 ^ 32)
  else turn s.edge x

/-- A step (R258): Chorus moves, the step is counted and every function gets its notice. A pending commit whose instant it
passes is late. -/
def State.chorusStep (s : State) (d : Int) : State :=
  let old := s.chorus
  let s : State := (s.setChorus (addChorus s.chorus d))
  let s : State := s.setChr { s.chr with commit := s.chr.commit.map (fun x =>
    { x with passed := x.passed || (decide (old < x.target) && decide (x.target < s.chorus)) }) }
  (s.satInc R.CHR_STEP_CNT 31 0).noticeAll 3 0 (leBytes 8 (wrap 64 (d / 256)))

/-! ## Discipline (R261 to R265) -/

/-- The discipline's state (R277). -/
def State.chrState (s : State) : Nat := s.fld R.CHR_STATE 31 29

/-- EBOUND as it reads now (R265): in HOLDOVER it grows by 50 ns per ms from its last LOCKED value. -/
def State.ebound (s : State) : Nat :=
  if s.chrState = 3 then min 0xFFFF (s.chr.heldEb + 50 * (s.ns - s.chr.holdAt) / 1000000) else s.fld R.CHR_STATE 15 0

/-- What CHR_STATE reads as. -/
def State.chrStateView (s : State) : Word64 := setBits (s.reg R.CHR_STATE) 15 0 s.ebound

/-- Change the discipline's own state. -/
def State.modChr (s : State) (f : ChrState → ChrState) : State := (s.setChr (f s.chr))

/-- Enter a state of R264. EBOUND is given in LOCKED and HOLDOVER only; HOLDOVER and LOST slew no more; entries to
HOLDOVER, LOST and LOCKED are noticed on every function. -/
def State.chrEnter (s : State) (st eb : Nat) : State :=
  let eb := min 0xFFFF eb
  let s := (s.setFld R.CHR_STATE 31 29 st).setFld R.CHR_STATE 15 0 (if st = 2 then eb else 0xFFFF)
  let s := s.modChr (fun c => match st with
    | 1 => { c with meas := [], good := 0 }
    | 2 => { c with lockEb := eb }
    | 3 => { c with slew := 0, holdAt := s.ns, heldEb := c.lockEb }
    | 4 => { c with slew := 0 }
    | _ => { c with lockEb := 0xFFFF })
  if st = 2 ∨ st = 3 ∨ st = 4 then s.noticeAll 4 0 (leBytes 4 s.chrStateView.toNat) else s

/-- The bound to the root that a LOCKED child has under a parent's bound (R265). -/
def childEbound (parent : Nat) : Nat := min 0xFFFF (parent + 2)

/-- The delay of a measurement from its four timestamps, in 1/256 ns (R263). -/
def beaconDelay (t1 t2 t3 t4 : Int) : Int := ((t2 - t1) + (t4 - t3)) / 2

/-- The offset of a measurement from its four timestamps, in 1/256 ns (R263). -/
def beaconOffset (t1 t2 t3 t4 : Int) : Int := ((t2 - t1) - (t4 - t3)) / 2

/-- The trim after a correction toward zero (R257, R263): an open amount, against the sign of the filtered offset. -/
def trimToward (trim x : Int) (amount : Nat) : Int :=
  max (-429496) (min 429496 (if 0 < x then trim - amount else if x < 0 then trim + amount else trim))

/-- The filtered offset (R263): an open value between the smallest and the largest of the last offsets. -/
def filtered (ms : List Int) (choice : Nat) : Int :=
  match ms with
  | [] => 0
  | m :: r =>
    let lo := r.foldl min m
    let hi := r.foldl max m
    lo + (choice % ((hi - lo).toNat + 1) : Nat)

/-- The port whose beacons discipline the chip (R264). -/
def State.parentPort (s : State) : Nat := if s.chr.backup then s.fld R.CHR_CFG 26 25 else s.fld R.CHR_CFG 29 28

/-- One measurement (R263, R264): filter, correct, and the moves of ACQUIRE and LOCKED. The beacon's own transmission is t1
and its reception now t2; its echo holds t3 and t4. -/
def State.measure (s : State) (m : Beacon) : State :=
  match m.echo with
  | none => s
  | some (t3, t4) =>
    let ms := (beaconOffset m.sent s.chorus.toNat t3 t4 :: s.chr.meas).take 16
    let x := filtered ms (Config.chrFilter s.free)
    let good := if x.natAbs ≤ 256 then s.chr.good + 1 else 0
    let trim := trimToward s.chr.trim x (Config.chrTrim s.free)
    let s := (s.takeFree.setReg R.CHR_OFFSET (BitVec.ofNat 64 (wrap 32 x))).modChr (fun c => { c with
      meas := ms, good := good, delay := beaconDelay m.sent s.chorus.toNat t3 t4 })
    if s.chrState = 1 then
      if x.natAbs > s.fld R.CHR_CFG 15 0 * 256 then
        if ms.length = 16 then (s.chorusStep (-x)).modChr (fun c => { c with meas := [], good := 0, slew := 0 }) else s
      else
        let s := s.modChr (fun c => { c with slew := -x })
        if good ≥ 64 then s.chrEnter 2 (childEbound m.ebound) else s
    else if x.natAbs > 20 * 256 then s.chrEnter 1 0
    else (s.setFld R.CHR_STATE 15 0 (childEbound m.ebound)).modChr (fun c => { c with
      slew := -x, trim := trim, lockEb := childEbound m.ebound })

/-- A beacon from a port that may discipline the chip is the newest valid one. -/
def State.heardBeacon (s : State) (m : Beacon) : State :=
  ((s.setFld R.CHR_STATE 27 24 m.link.val).setFld R.CHR_STATE 23 16 (m.hops + 1)).modChr (fun c =>
    { c with lastBcn := s.ns, root := m.root.toNat })

/-- The timestamps of a beacon are kept for the echo of the next one sent on its port (R262); one that retry resent has none. -/
def State.keepBeacon (s : State) (p : Nat) (m : Beacon) : State :=
  if m.resent then s
  else s.modChr (fun c => { c with rcvd := ⟨p, m.sent, s.chorus.toNat⟩ :: c.rcvd.filter (fun x => x.port ≠ p) })

/-- What a beacon does to the discipline of a CHILD (R264). -/
def State.childBeacon (s : State) (p : Nat) (m : Beacon) : State :=
  let locked := decide (m.state = 2)
  let onParent := decide (p = s.fld R.CHR_CFG 29 28)
  let onBackup := s.bitOf R.CHR_CFG 27 && decide (p = s.fld R.CHR_CFG 26 25)
  let acquire (b : Bool) : State :=
    ((s.heardBeacon m).modChr (fun c => { c with backup := b })).setFld R.CHR_STATE 28 28 b.toNat |>.chrEnter 1 0
  match s.chrState with
  | 0 => if onParent && locked then acquire false else s
  | 1 | 2 =>
    if p ≠ s.parentPort then s
    else if locked then (if m.resent then s.heardBeacon m else (s.heardBeacon m).measure m)
    else s.chrEnter 3 0
  | _ => if onParent && locked then acquire false else if onBackup && locked then acquire true else s

/-- BEACON_RECEIVE (R262 to R264): every chip timestamps it; a CHILD's discipline follows its parent's. -/
def execBeaconReceive (p : Fin 4) (m : Beacon) (s : State) : Out :=
  .next (
    let s := s.keepBeacon p.val m
    if s.fld R.CHR_CFG 31 30 ≠ 3 then s else s.childBeacon p.val m)

/-- BEACON_LOSS (R264): 16 µs with no valid beacon. -/
def execBeaconLoss (s : State) : Out :=
  .next (if s.fld R.CHR_CFG 31 30 = 3 ∧ (s.chrState = 1 ∨ s.chrState = 2) ∧ s.chr.lastBcn + 16000 ≤ s.ns then s.chrEnter 3 0
    else s)

/-- HOLDOVER_EXPIRY (R264): 1 s in HOLDOVER. -/
def execHoldoverExpiry (s : State) : Out :=
  .next (if s.chrState = 3 ∧ s.chr.holdAt + 1000000000 ≤ s.ns then s.chrEnter 4 0 else s)

/-- The lowest-numbered UP link of a port, if it runs BML-3 (R262). -/
def State.beaconLink (s : State) (p : Nat) : Option Nat :=
  match (s.linksOf p).find? (fun l => s.fld (R.LNK_STAT l) 63 60 = 3) with
  | some l => if s.fld (R.LNK_STAT l) 59 58 = 3 then some l else none
  | none => none

/-- Whether a port carries beacons: it is a child port, the parent or the enabled backup (R261, R262, R269). -/
def State.beaconPort (s : State) (p : Nat) : Bool :=
  s.bitOf R.CHR_CFG (21 + p) || (decide (s.fld R.CHR_CFG 31 30 = 3) &&
    (decide (s.fld R.CHR_CFG 29 28 = p) || (s.bitOf R.CHR_CFG 27 && decide (s.fld R.CHR_CFG 26 25 = p))))

/-- BEACON_SEND (R262): one beacon in each µs on a port that carries them, with the echo of the last one received there. -/
def execBeaconSend (p : Fin 4) (s : State) : Out :=
  .next (match s.beaconLink p.val with
    | none => s
    | some l =>
      let old := s.chr.sent.find? (fun b => b.port == p.val)
      let due := match old with | some b => decide (b.sentAt + 1000 ≤ s.ns) | none => true
      if s.beaconPort p.val && due then
        let root := if s.fld R.CHR_CFG 31 30 = 3 then s.chr.root else s.chipId
        let echo := (s.chr.rcvd.find? (fun x => x.port == p.val)).map (fun x => (x.sent, x.at_))
        let b : BeaconOut := ⟨p.val, l, s.chorus, s.ns, root, s.fld R.CHR_STATE 23 16, s.chrState, s.ebound, echo⟩
        s.modChr (fun c => { c with sent := b :: c.sent.filter (fun x => x.port ≠ p.val) })
      else s)

/-- An agent reads CHR_NOW: the fraction of the same tick is latched for it (R276). -/
def State.latchFrac (s : State) (a : Agent) : State :=
  s.modChr (fun c => { c with fracs := (a, BitVec.ofNat 8 (bits s.chorus 7 0)) :: c.fracs.filter (fun e => e.1 ≠ a) })

/-- CHR_FRAC as an agent reads it (R276). -/
def State.fracOf (s : State) (a : Agent) : Word64 :=
  match s.chr.fracs.find? (fun e => e.1 = a) with
  | some e => BitVec.ofNat 64 e.2.toNat
  | none => 0

/-- CHR_NOW_READ (R276). -/
def execChrNowRead (a : Agent) (s : State) : Out := .next (s.latchFrac a)

end Sys2Proof.Machine
end

