-- ==== Sys2Proof/Machine/MatrixOps.lean ====
section
/-!
DEFINITION. Shared operations of the matrix array (chapters 03 and 04): operand layout, format classes, products and
accumulation, tiles, the activity level.
-/

namespace Sys2Proof.Machine

/-! ## Operand words, classes (R68 to R72) -/

/-- BASE of an operand word. -/
def opBase (w : Word64) : Nat := bits w 21 0

/-- STRIDE of an operand word. -/
def opStride (w : Word64) : Nat := bits w 43 22

/-- Reserved operand-word bits set. -/
def opReserved (w : Word64) : Bool := decide (bits w 63 44 ≠ 0)

/-- Bytes that `n` elements of a memory row or vector take (R72). -/
def matBytes (f : Fmt) (n : Nat) : Nat :=
  match f with
  | .e3m2 | .e2m3 => 3 * ((n + 3) / 4)
  | f => f.bytes n

/-- Alignment of BASE and STRIDE (R72). -/
def matAlign : Fmt → Nat
  | .e3m2 | .e2m3 => 3
  | .bf16 | .fp16 => 2
  | .fp32 => 4
  | _ => 1

/-- Format codes that a field of the array accepts (R69). -/
def matAccepts (c : Nat) : Bool := [0, 1, 2, 4, 5, 6, 7, 8, 11, 12, 13].contains c

/-- The class of a P1 format code: 0 F8, 1 I8, 2 F4, 3 I4, 4 F16; 9 for none (R68). -/
def matClass (c : Nat) : Nat :=
  if [4, 5, 6, 7].contains c then 0 else if [11, 12].contains c then 1 else if c = 8 then 2 else if c = 13 then 3
  else if [1, 2].contains c then 4 else 9

/-- Whether held and streamed formats and the pass count form a combination of R68. -/
def matCombo (pass held str : Nat) : Bool :=
  match pass with
  | 0 => decide (matClass held = matClass str) && decide (matClass held ≠ 9)
  | 1 => (held == 0 || held == 1) && str == 0
  | 2 => held == 0 && str == 0
  | _ => false

/-- The accumulator format code of a combination: FP32, INT32 or FP32X2 (R68). -/
def matAccFmt (pass held : Nat) : Nat :=
  if pass = 2 then 14 else if pass = 0 ∧ (matClass held = 1 ∨ matClass held = 3) then 9 else 0

/-- The vector period (R68). -/
def matPeriod (pass held : Nat) : Nat :=
  if pass = 2 then 6 else if pass = 1 then 4 else if matClass held = 4 then 2 else 1

/-- The bytes of a run of rows as (offset, length) pairs. -/
def rowRanges (base stride len n : Nat) : List (Nat × Nat) := (List.range n).map (fun j => (base + j * stride, len))

/-- Whether every byte of the rows lies in the window (R72, R78 check 10). -/
def rowsFit (rs : List (Nat × Nat)) : Bool := rs.all (fun r => decide (r.1 + r.2 ≤ padSize))

/-- Whether the running context owns every segment that the rows touch (R78 check 10). -/
def State.ownsRows (s : State) (k c : Nat) (rs : List (Nat × Nat)) : Bool := rs.all (fun r => s.owns k c r.1 r.2)

/-- Read a context's row for a unit: a segment that it no longer owns refuses the row (R181). -/
def State.rowRead (s : State) (k c off len : Nat) : State × List TByte × Status :=
  if s.owns k c off len then s.padRead k off len else (s, [], 0x0102)

/-- Write a context's row for a unit; the status is GS_0705 when a word refused a merge (R186). -/
def State.rowWrite (s : State) (k c off : Nat) (d : List TByte) : State × Status :=
  if s.owns k c off d.length then
    let (s, ok) := s.padWrite k off d
    (s, if ok then 0 else 0x0705)
  else (s, 0x0102)

/-! ## Held buffers -/

/-- Held buffer `b`. -/
def CoreState.held (x : CoreState) (b : Bool) : HeldBuf := if b then x.h1 else x.h0

/-- Put a held buffer. -/
def CoreState.setHeld (x : CoreState) (b : Bool) (h : HeldBuf) : CoreState :=
  if b then { x with h1 := h } else { x with h0 := h }

/-- The buffer of a matrix instruction. -/
def matHbuf (f : IBits) : Bool := bit f 55

/-- A held buffer as the latest issued MHOLD will leave it; none when it is empty (R78). -/
def CoreState.heldView (x : CoreState) (b : Bool) : Option HoldView :=
  match (x.mq.filter (fun e => e.kind = .mhold && matHbuf e.f == b)).getLast? with
  | some e => some ⟨bit e.f 54, bits e.f 53 50, bits e.f 44 38 + 1, bits e.f 37 32 + 1⟩
  | none =>
    let h := x.held b
    if h.loaded then some ⟨h.role, h.fmt, h.k, h.w⟩ else none

/-- Empty both held buffers and the latched vector (R82, R86). -/
def CoreState.emptyHeld (x : CoreState) : CoreState := { x with h0 := HeldBuf.empty, h1 := HeldBuf.empty, last := none }

/-! ## Tiles (R81, R100, R101) -/

/-- Accumulator rows that a tile of `nvec` + 1 vectors takes (R104). -/
def tileRows (nvec afmt : Nat) : Nat := if afmt = 14 then 2 * (nvec + 1) else nvec + 1

/-- Whether two runs of context rows overlap. -/
def tileOverlap (r1 n1 f1 r2 n2 f2 : Nat) : Bool := overlaps r1 (tileRows n1 f1) r2 (tileRows n2 f2)

/-- The tile that an instruction now at issue names: open, of context `c`, with this row and height (R78 check 13). -/
def CoreState.openTile (x : CoreState) (c : CtxId) (row nvec : Nat) : Option Tile :=
  x.tiles.find? (fun t => t.ctx = c && t.row == row && t.nvec == nvec && t.cseq == none)

/-- The tile that a queued instruction names. -/
def CoreState.tileFor (x : CoreState) (c : CtxId) (row nvec seq : Nat) : Option Tile :=
  x.tiles.find? (fun t => t.ctx = c && t.row == row && t.nvec == nvec && decide (t.oseq ≤ seq) &&
    (match t.cseq with | none => true | some q => decide (seq ≤ q)))

/-- Replace a tile's record. -/
def CoreState.putTile (x : CoreState) (t : Tile) : CoreState :=
  { x with tiles := x.tiles.map (fun u => if u.oseq = t.oseq then t else u) }

/-- Remove a tile's record. -/
def CoreState.dropTile (x : CoreState) (t : Tile) : CoreState :=
  { x with tiles := x.tiles.filter (fun u => decide (u.oseq ≠ t.oseq)) }

/-- Merge a tile's flags into MA_EXC_k (R101). -/
def State.mergeTile (s : State) (k : Nat) (t : Tile) : State :=
  s.setReg (R.MA_EXC k t.ctx.val) (s.reg (R.MA_EXC k t.ctx.val) |||
    BitVec.ofNat 64 (t.sat.toNat + 2 * t.ovf.toNat + 4 * t.nan.toNat + 8 * t.ue.toNat))

/-- Close a tile: flags merged, record gone, rows as they are (R77, R82, R90). -/
def State.closeTile (s : State) (k : Nat) (t : Tile) : State := (s.mergeTile k t).modCore k (fun x => x.dropTile t)

/-- Close a tile where a streamed vector could not be read (R90). Its rows keep their contents for the drains and discards
queued before the faulting MMUL (R78): the record stays for them, closed to everything later. -/
def State.closeTileAt (s : State) (k : Nat) (t : Tile) (seq : Nat) : State :=
  if (s.core k).mq.any (fun a => decide (a.seq < seq) && a.kind != .mhold && a.kind != .mmul &&
      decide (((s.core k).tileFor a.ctx (bits a.f 55 46) (bits a.f 45 38) a.seq).map (fun u => u.oseq) = some t.oseq)) then
    (s.mergeTile k t).modCore k (fun x => x.putTile { t with cseq := some seq })
  else s.closeTile k t

/-- A tile that a fault has closed goes with the last queued instruction that names it; no drain is left that would close
it. -/
def CoreState.dropClosed (x : CoreState) (t : Tile) : CoreState :=
  if t.cseq.isSome && x.mq.all (fun a => a.kind == .mhold || decide ((x.tileFor a.ctx
      (if a.kind = .mmul then bits a.f 37 28 else bits a.f 55 46)
      (if a.kind = .mmul then bits a.f 27 20 else bits a.f 45 38) a.seq).map (fun u => u.oseq) ≠ some t.oseq))
  then x.dropTile t else x

/-- Close every open tile of a context (R82, R308). -/
def State.closeTiles (s : State) (k : Nat) (c : CtxId) : State :=
  ((s.core k).tiles.filter (fun t => t.ctx = c)).foldl (fun s t => s.closeTile k t) s

/-- The scale product S and whether it overflowed (R60). -/
def scaleProduct (scw : Word64) : Nat × Bool :=
  let r := fp32P.conv .rne true (Num.mul (f32 (bits scw 31 0)) (f32 (bits scw 63 32)))
  (r.val, r.ofl)

/-! ## Products (R92 to R96) -/

/-- The split of a finite FP32 value (R92). -/
def splitHi (x : Num) : Num := Fmt.fp .bf16 |>.decode ((Fmt.fp .bf16).conv .rne true x).val

/-- The lo part of R92. -/
def splitLo (x : Num) : Num :=
  (Fmt.fp .bf16).decode ((Fmt.fp .bf16).conv .rne false (Num.add false x (splitHi x).negate)).val

/-- The terms of one pair of elements (R94, R95). -/
def pairTerms (pass : Nat) (h t : Num) : List Num :=
  if !h.isFin || !t.isFin then [Num.mul h t]
  else match pass with
    | 1 => [Num.mul (splitHi h) (splitHi t), Num.mul (splitHi h) (splitLo t)]
    | 2 => [Num.mul (splitHi h) (splitHi t), Num.mul (splitHi h) (splitLo t), Num.mul (splitLo h) (splitHi t)]
    | _ => [Num.mul h t]

/-- The exact sum of terms; infinities of both signs, or a NaN, give NaN (R96, R97). -/
def sumTerms (ts : List Num) : Num := ts.foldl (fun a t => Num.add false a t) (.fin false 0 0)

/-- The contribution of one streamed vector to column `w` (R65, R96). -/
def contribution (pass hf sf : Nat) (held : List (List Nat)) (vec : List Nat) (w : Nat) : Num :=
  match Fmt.ofCode hf, Fmt.ofCode sf with
  | some fh, some ft =>
    sumTerms ((held.zip vec).flatMap (fun p => pairTerms pass (fh.value (p.1.getD w 0)) (ft.value p.2)))
  | _, _ => .fin false 0 0

/-- FP32 as the accumulator stores it: ±max finite on overflow, every zero +0 (R97, R98). -/
def accF32 (x : Num) : Nat × Bool :=
  let r := fp32P.conv .rne true x
  (if r.val % 2 ^ 31 = 0 then 0 else r.val, r.ofl)

/-- An accumulator element after a contribution, with the flags it sets (R96 to R99). -/
structure AccStep where
  head : Nat
  tail : Nat
  sat  : Bool
  ovf  : Bool
  deriving DecidableEq, Repr

/-- Add a contribution to an element (R96 to R99). Where rounding leaves a tail of half a unit under an odd head, the pair of the
formulas stands: DEDUCED, log entry 89. -/
def accAdd (afmt head tail : Nat) (t : Num) : AccStep :=
  if afmt = 9 then
    let v := signed 32 head + t.dy.m * 2 ^ t.dy.e.toNat
    let w := max (-2147483648) (min 2147483647 v)
    ⟨wrap 32 w, 0, decide (w ≠ v), false⟩
  else if afmt = 14 then
    let w := Num.add false (Num.add false (f32 head) (f32 tail)) t
    let (h, o) := accF32 w
    if o || !(f32 h).isFin then ⟨h, 0, false, o⟩
    else ⟨h, (accF32 (Num.add false w (f32 h).negate)).1, false, false⟩
  else
    let (h, o) := accF32 (Num.add false (f32 head) t)
    ⟨h, 0, false, o⟩

/-- Accumulator word of physical row and column. -/
def CoreState.accWord (x : CoreState) (row col : Nat) : Nat := (Sparse.get (fun _ => 0#32) x.acc (row * 64 + col)).toNat

/-- Put an accumulator word. -/
def CoreState.setAcc (x : CoreState) (row col v : Nat) : CoreState :=
  { x with acc := Sparse.set (fun _ => 0#32) x.acc (row * 64 + col) (BitVec.ofNat 32 v) }

/-- Whether an accumulator element is poisoned (R103). -/
def CoreState.accPoison (x : CoreState) (row col : Nat) : Bool := Sparse.get (fun _ => false) x.accBad (row * 64 + col)

/-- The physical row of vector `j` of a tile that starts at context row `row` (R81). -/
def vecRow (base row afmt j : Nat) : Nat := base + row + (if afmt = 14 then 2 * j else j)

/-- Add one vector's contribution to a tile (R96 to R99); a poisoned element discards it (R103). -/
def CoreState.accVector (x : CoreState) (base : Nat) (t : Tile) (j : Nat) (c : Nat → Num) : CoreState × Tile :=
  (List.range t.w).foldl (fun (p : CoreState × Tile) w =>
    let r := vecRow base t.row t.afmt j
    if p.1.accPoison r w || (t.afmt = 14 && p.1.accPoison (r + 1) w) then p
    else
      let a := accAdd t.afmt (p.1.accWord r w) (if t.afmt = 14 then p.1.accWord (r + 1) w else 0) (c w)
      let y := p.1.setAcc r w a.head
      (if t.afmt = 14 then y.setAcc (r + 1) w a.tail else y,
       { p.2 with sat := p.2.sat || a.sat, ovf := p.2.ovf || a.ovf })) (x, t)

/-- Open a tile's rows: columns below W become +0 and the rows lose their poison (R81, R103). -/
def CoreState.zeroTile (x : CoreState) (base : Nat) (t : Tile) : CoreState :=
  (List.range (tileRows t.nvec t.afmt)).foldl (fun x r =>
    let y := (List.range t.w).foldl (fun y w => y.setAcc (base + t.row + r) w 0) x
    { y with accBad := Sparse.drop y.accBad (fun i => i / 64 == base + t.row + r) }) x

/-! ## Activity level (R84, R85) -/

/-- LMAX, with values above 16 acting as 16 (R88). -/
def State.lmax (s : State) (k : Nat) : Nat := min 16 (s.fld (R.MA_RISE_CTL k) 12 8)

/-- Activity level L. -/
def State.level (s : State) (k : Nat) : Nat := s.fld (R.MA_LEVEL k) 20 16

/-- Occupancy credit Q: what it last was, and L for each CCLK since then, up to 96 (R84 step 1). -/
def State.credit (s : State) (k : Nat) : Nat :=
  let q := s.fld (R.MA_LEVEL k) 6 0
  let at_ := Sparse.get (fun _ => 0) s.sys.creditAt k
  if s.ns = at_ then q else min 96 (q + s.level k * Config.idleCclk (s.ns - at_) s.free)

/-- Set Q as it is now. -/
def State.setCredit (s : State) (k q : Nat) : State :=
  ((s.setSys { s.sys with creditAt := Sparse.set (fun _ => 0) s.sys.creditAt k s.ns }) : State).setFld (R.MA_LEVEL k) 6 0 q

/-- Set the level; at level 0 the credit is 0 (R85). -/
def State.setLevel (s : State) (k l : Nat) : State :=
  (s.setCredit k (if l = 0 then 0 else s.credit k)).setFld (R.MA_LEVEL k) 20 16 l

/-- The credit after `n` vectors of period `p` at level `l`: it earns `l` in each CCLK up to 96, and a vector that enters
takes 16·p (R84). -/
def streamCredit (l p : Nat) : Nat → Nat → Nat
  | 0, q => q
  | n + 1, q =>
    let q1 := min 96 (q + l)
    let wait := if q1 ≥ 16 * p then 0 else (16 * p - q1 + l - 1) / l
    streamCredit l p n (min 96 (min 96 (q1 + wait * l) - 16 * p + (p - 1) * l))

/-- The first real vector becomes ready at level 0 (R85). -/
def State.riseFromZero (s : State) (k : Nat) : State :=
  if s.level k = 0 then s.setLevel k (if s.fld (R.MA_RISE_CTL k) 7 0 = 0 then s.lmax k else min 1 (s.lmax k)) else s

/-- `n` vectors of period `p` have streamed: credit and MA_ACTIVE_CNT (R84, R89). -/
def State.streamed (s : State) (k p n : Nat) : State :=
  (s.setCredit k (if s.level k = 0 then 0 else streamCredit (s.level k) p n (s.credit k))).wrapInc
    (R.MA_ACTIVE_CNT k) 63 0 (n * p)

/-! ## Registers -/

/-- Write MA_CTX_ACC_k (R82, R83): every open tile of the context closes. -/
def State.wrMaCtxAcc (s : State) (k : Nat) (c : CtxId) (v : Word64) : State :=
  let a := R.MA_CTX_ACC k c.val
  let lim := bits v 26 16
  let base := bits v 9 0
  let clash := (List.range 4).any (fun d => d != c.val &&
    overlaps base lim (s.fld (R.MA_CTX_ACC k d) 9 0) (s.fld (R.MA_CTX_ACC k d) 26 16))
  if base + lim > 1024 ∨ clash = true then s.regErr a 0x030B else (s.closeTiles k c).setReg a v

/-- Write MA_BALLAST_CTL (R87). -/
def State.wrMaBallast (s : State) (k : Nat) (v : Word64) : State := s.setReg (R.MA_BALLAST_CTL k) v

/-- Write MA_RISE_CTL (R85, R88): the level never exceeds LMAX. -/
def State.wrMaRise (s : State) (k : Nat) (v : Word64) : State :=
  let s := s.setReg (R.MA_RISE_CTL k) v
  if s.level k > s.lmax k then s.setLevel k (s.lmax k) else s

end Sys2Proof.Machine
end

