-- ==== Sys2Proof/Machine/Matrix.lean ====
section
/-!
DEFINITION. The matrix array's commands (chapters 03 and 04): the checks at issue of MHOLD, MMUL, MDRAIN and MDISCARD, and
what each does when it leaves the matrix queue.
-/

namespace Sys2Proof.Machine

/-! ## Issue -/

/-- Place a matrix instruction in its queue with its operand and scale words (R156). -/
def State.queueMat (s : State) (k : Nat) (c : CtxId) (kind : MatKind) (f : IBits) (opw scw : Word64) : State :=
  s.modCore k (fun x => { x with mq := x.mq ++ [⟨kind, c, x.seqNo, s.pc k c.val, f, opw, scw⟩] })

/-- Whether the matrix queue has room (R73); an instruction that finds none issues, and is checked, when an entry frees
(R155). -/
def State.matRoom (s : State) (k : Nat) : Bool := decide ((s.core k).mq.length < 8)

/-- FLAG not zero with FEN = 0 (R76, R78 check 2). -/
def flagUnused (f : IBits) : Bool := !bit f 16 && decide (bits f 15 4 ≠ 0)

/-- FEN = 1 with a flag outside the context's range (R78 check 15). -/
def State.flagBad (s : State) (k c : Nat) (f : IBits) : Bool := bit f 16 && !s.flagOk k c (bits f 15 4)

/-- MHOLD at issue (R74, R78). -/
def execMhold (k : CoreId) (f : IBits) (s : State) : Out :=
  .next (s.issue k.val 0x40 f 2 [bits f 49 45] fun s c =>
    if !s.matRoom k.val then .stall else
    let w := s.sreg k.val c.val (bits f 49 45)
    let fc := bits f 53 50
    let fmt := (Fmt.ofCode fc).getD .fp32
    let kk := bits f 44 38 + 1
    let rs := rowRanges (opBase w) (opStride w) (matBytes fmt (bits f 37 32 + 1)) kk
    Issued.checked s
      [(bits f 31 0 ≠ 0 || opReserved w, 0x0302), (fc = 15, 0x0202), (!matAccepts fc, 0x0204),
       (decide (kk > 64) && !(fc == 8 || fc == 13), 0x030A),
       (opBase w % matAlign fmt ≠ 0 || decide (opStride w % matAlign fmt ≠ 0), 0x0309),
       (!rowsFit rs, 0x0101), (!s.ownsRows k.val c.val rs, 0x0102)] fun _ =>
      .done (s.queueMat k.val c .mhold f w 0))

/-- MMUL at issue (R76, R78): an OPEN one makes its tile's record, which opens when it starts. -/
def execMmul (k : CoreId) (f : IBits) (s : State) : Out :=
  .next (s.issue k.val 0x41 f 2 [bits f 47 43, bits f 42 38] fun s c =>
    if !s.matRoom k.val then .stall else
    let x := s.core k.val
    let w := s.sreg k.val c.val (bits f 47 43)
    let sc := s.sreg k.val c.val (bits f 42 38)
    let pass := bits f 54 53
    let fc := bits f 51 48
    let fmt := (Fmt.ofCode fc).getD .fp32
    let row := bits f 37 28
    let nvec := bits f 27 20
    let v := x.heldView (matHbuf f)
    let h := v.getD ⟨false, 0, 1, 1⟩
    let af := matAccFmt pass h.fmt
    let rs := rowRanges (opBase w) (opStride w) (matBytes fmt h.k) (nvec + 1)
    let base := s.fld (R.MA_CTX_ACC k.val c.val) 9 0
    let lim := s.fld (R.MA_CTX_ACC k.val c.val) 26 16
    let tile := x.openTile c row nvec
    let opens := bit f 52
    let same := match tile with
      | some t => t.role == h.role && t.w == h.w && t.afmt == af
      | none => false
    let scales := match tile with
      | some t => decide (t.scales = sc)
      | none => false
    Issued.checked s
      [(bits f 19 17 ≠ 0 || decide (bits f 3 0 ≠ 0) || opReserved w || flagUnused f, 0x0302),
       (pass = 3 || (decide (pass = 2) && s.variant == .n640), 0x0303),
       (fc = 15, 0x0202), (!matAccepts fc, 0x0204), (v.isNone, 0x0308), (!matCombo pass h.fmt fc, 0x0304),
       (opBase w % matAlign fmt ≠ 0 || decide (opStride w % matAlign fmt ≠ 0), 0x0309),
       (!rowsFit rs, 0x0101), (!s.ownsRows k.val c.val rs, 0x0102),
       (row + tileRows nvec af > lim || (af == 14 && decide ((base + row) % 2 = 1)), 0x0307),
       (opens && x.tiles.any (fun t => t.ctx = c && t.cseq == none && tileOverlap t.row t.nvec t.afmt row nvec af), 0x0306),
       (!opens && !same, 0x0305), (!opens && !scales, 0x0203), (s.flagBad k.val c.val f, 0x0901)] fun _ =>
      let s1 := s.queueMat k.val c .mmul f w sc
      .done (if opens then
          s1.modCore k.val (fun y => { y with tiles := y.tiles ++ [{
            ctx := c, row := row, nvec := nvec, role := h.role, w := h.w, afmt := af, scales := sc,
            s := (scaleProduct sc).1, oseq := x.seqNo, cseq := none, sat := false, ovf := (scaleProduct sc).2,
            nan := false, ue := false, live := false }] })
        else s1))

/-- Mark an open tile as closed by the instruction now at issue (R107). -/
def State.markClosed (s : State) (k : Nat) (t : Tile) : State :=
  s.modCore k (fun x => x.putTile { t with cseq := some x.seqNo })

/-- The bytes a drain writes: its memory rows and, with DSTAT, the status word (R107, R108, R111). -/
def drainRanges (opw : Word64) (w nvec df : Nat) (dstat : Bool) : List (Nat × Nat) :=
  rowRanges (opBase opw) (opStride opw) (w * (if df = 14 then 8 else 4)) (nvec + 1) ++
    (if dstat then [(opBase opw + (nvec + 1) * opStride opw, 8)] else [])

/-- MDRAIN at issue (R105 to R107). -/
def execMdrain (k : CoreId) (f : IBits) (s : State) : Out :=
  .next (s.issue k.val 0x42 f 2 [bits f 33 29] fun s c =>
    if !s.matRoom k.val then .stall else
    let x := s.core k.val
    let w := s.sreg k.val c.val (bits f 33 29)
    let df := bits f 37 34
    let row := bits f 55 46
    let nvec := bits f 45 38
    let dstat := bit f 27
    let al := if df = 14 ∨ dstat then 8 else 4
    let tile := x.openTile c row nvec
    let named (g : Tile → Bool) : Bool := match tile with
      | some t => g t
      | none => false
    let base := s.fld (R.MA_CTX_ACC k.val c.val) 9 0
    let lim := s.fld (R.MA_CTX_ACC k.val c.val) 26 16
    Issued.checked s
      [(bits f 26 17 ≠ 0 || decide (bits f 3 0 ≠ 0) || opReserved w || flagUnused f, 0x0302),
       (df = 15, 0x0202), (!(df == 0 || df == 9 || df == 14), 0x0204),
       (opBase w % al ≠ 0 || decide (opStride w % al ≠ 0), 0x0309),
       (named (fun t => !rowsFit (drainRanges w t.w nvec df dstat)), 0x0101),
       (named (fun t => !s.ownsRows k.val c.val (drainRanges w t.w nvec df dstat)), 0x0102),
       (named (fun t => decide (row + tileRows nvec t.afmt > lim) || (t.afmt == 14 && decide ((base + row) % 2 = 1))), 0x0307),
       (tile.isNone, 0x0305),
       (named (fun t => !(t.afmt == df || (t.afmt == 9 && df == 0))), 0x0304),
       (s.flagBad k.val c.val f, 0x0901)] fun _ =>
      let s1 := s.queueMat k.val c .mdrain f w 0
      .done (match tile with
        | some t => if bit f 28 then s1 else s1.markClosed k.val t
        | none => s1))

/-- The rows, in the context, that a queued instruction touches: first row, height and format. -/
def CoreState.entryRows (x : CoreState) (e : MatEntry) : Option (Nat × Nat × Nat) :=
  match e.kind with
  | .mhold => none
  | .mmul => (x.tileFor e.ctx (bits e.f 37 28) (bits e.f 27 20) e.seq).map (fun t => (t.row, t.nvec, t.afmt))
  | _ => (x.tileFor e.ctx (bits e.f 55 46) (bits e.f 45 38) e.seq).map (fun t => (t.row, t.nvec, t.afmt))

/-- Whether two queued instructions touch a common row. -/
def CoreState.sameRows (x : CoreState) (a b : MatEntry) : Bool :=
  match x.entryRows a, x.entryRows b with
  | some p, some q => a.ctx = b.ctx && tileOverlap p.1 p.2.1 p.2.2 q.1 q.2.1 q.2.2
  | _, _ => false

/-- The entries queued before one. -/
def CoreState.before (x : CoreState) (e : MatEntry) : List MatEntry := x.mq.filter (fun a => decide (a.seq < e.seq))

/-- Whether a drain or discard may run: no earlier MMUL, drain or discard of its rows is left (R80, R109). -/
def CoreState.drainReady (x : CoreState) (e : MatEntry) : Bool :=
  (x.before e).all (fun a => a.kind = .mhold || !x.sameRows a e)

/-- Remove an entry from the matrix queue. -/
def CoreState.dropEntry (x : CoreState) (e : MatEntry) : CoreState :=
  { x with mq := x.mq.filter (fun a => decide (a.seq ≠ e.seq)) }

/-- Queued discards that wait on nothing close their tiles (R77, R80). -/
def State.settleDiscards (s : State) (k : Nat) : State :=
  ((s.core k).mq.filter (fun e => e.kind = .mdiscard)).foldl (fun s e =>
    if (s.core k).drainReady e then
      let s := match (s.core k).tileFor e.ctx (bits e.f 55 46) (bits e.f 45 38) e.seq with
        | some t => s.closeTile k t
        | none => s
      s.modCore k (fun x => x.dropEntry e)
    else s) s

/-- MDISCARD (R77, R78). -/
def execMdiscard (k : CoreId) (f : IBits) (s : State) : Out :=
  .next (s.issue k.val 0x43 f 2 [] fun s c =>
    if !s.matRoom k.val then .stall else
    let tile := (s.core k.val).openTile c (bits f 55 46) (bits f 45 38)
    Issued.checked s [(bits f 37 0 ≠ 0, 0x0302), (tile.isNone, 0x0305)] fun _ =>
      match tile with
        | some t => .done (((s.queueMat k.val c .mdiscard f 0 0).markClosed k.val t).settleDiscards k.val)
        | none => .done s)

/-! ## Running -/

/-- A queued matrix instruction faults while it runs (R90, R161). -/
def State.matFault (s : State) (k : Nat) (e : MatEntry) (st : Status) (addr : Nat) : State :=
  ((s.modCore k (fun x => x.dropEntry e)).faultCtx k e.ctx
    { unit := 2, status := st, seq := e.seq, pc := e.pc, instr := instrWord e.kind.opcode e.f, addr := addr }).settleDiscards k

/-- Rows read one after the other up to the first that fails. -/
structure RowsRead where
  s      : State
  rows   : List (List Byte)
  status : Status
  addr   : Nat

/-- Read rows for a unit of a context; it stops at the first row that cannot be read (R90, R142, R181). -/
def State.readRows (s : State) (k c : Nat) : List (Nat × Nat) → RowsRead
  | [] => ⟨s, [], 0, 0⟩
  | r :: rs =>
    let (s1, d, st) := s.rowRead k c r.1 r.2
    if st ≠ 0 then ⟨s1, [], st, r.1⟩
    else
      let x := s1.readRows k c rs
      ⟨x.s, clean d :: x.rows, x.status, x.addr⟩

/-- The elements of a memory row (R47, R72). -/
def rowElems (f : Fmt) (n : Nat) (b : List Byte) : List Nat := (List.range n).map (packedAt f b)

/-- The MHOLD that may load: the first of the queue's, with no earlier MMUL of its buffer (R75). -/
def CoreState.holdReady (x : CoreState) : Option MatEntry :=
  match x.mq.find? (fun e => e.kind = .mhold) with
  | some e => if (x.before e).any (fun a => a.kind = .mmul && matHbuf a.f == matHbuf e.f) then none else some e
  | none => none

/-- Load a held buffer (R65, R75); a row that cannot be read leaves it empty (R90). -/
def State.loadHold (s : State) (k : Nat) (e : MatEntry) : State :=
  let fmt := (Fmt.ofCode (bits e.f 53 50)).getD .fp32
  let kk := bits e.f 44 38 + 1
  let w := bits e.f 37 32 + 1
  let r := s.readRows k e.ctx.val (rowRanges (opBase e.opw) (opStride e.opw) (matBytes fmt w) kk)
  if r.status ≠ 0 then
    (r.s.modCore k (fun x => { (x.setHeld (matHbuf e.f) HeldBuf.empty) with last := none })).matFault k e r.status r.addr
  else
    r.s.modCore k (fun x => (x.setHeld (matHbuf e.f)
      ⟨true, bit e.f 54, bits e.f 53 50, kk, w, r.rows.map (rowElems fmt w)⟩).dropEntry e)

/-- MHOLD_LOAD (R75). -/
def execMholdLoad (k : CoreId) (s : State) : Out :=
  .next (match (if s.shut k.val then none else (s.core k.val).holdReady) with
    | some e => s.loadHold k.val e
    | none => s)

/-- The MMUL that R79 and R80 allow to start: the first of the queue's, with no earlier MHOLD of its buffer; one that opens a
tile waits for earlier drains and discards of its rows. -/
def CoreState.mmulReady (x : CoreState) : Option MatEntry :=
  match x.mq.find? (fun e => e.kind = .mmul) with
  | some e =>
    if (x.before e).any (fun a => (a.kind = .mhold && matHbuf a.f == matHbuf e.f) ||
        (bit e.f 52 && a.kind ≠ .mhold && x.sameRows a e)) then none else some e
  | none => none

/-- The MMUL that may stream: with LMAX = 0 none enters (R85). -/
def State.streamReady (s : State) (k : Nat) : Option MatEntry :=
  if s.lmax k = 0 ∨ s.shut k = true then none else (s.core k).mmulReady

/-- What the code of accumulator words finds (`errs`: what has happened to the words' stored bits) where the row of vector `j` of a tile is read, by word row*64+column (R103): a
correction counts in the position's bucket, a word beyond correction poisons its element and marks the tile, and counts
towards retirement (R387, R495). A poisoned element is not looked at again. -/
def State.accErrors (s : State) (k base : Nat) (t : Tile) (j : Nat) (errs : List (BitVec 16 × Upset)) : State × Tile :=
  let r := vecRow base t.row t.afmt j
  errs.foldl (fun p e =>
    let i := e.1.toNat
    if (i / 64 == r || (t.afmt == 14 && i / 64 == r + 1)) && decide (i % 64 < t.w) && !(p.1.core k).accPoison (i / 64) (i % 64) then
      let d := Code.word32.decode e.2 p.1.free
      let junk := BitVec.ofNat 32 (leNat ((List.range 4).map (fun b => Config.upsetByte (4 * i + b) p.1.free)))
      let s0 := (if d.2 then p.1.modCore k (fun x => { x with acc := Sparse.set (fun _ => 0#32) x.acc i junk })
        else p.1).takeFree
      match d.1, s0.phys k with
      | .ok, _ => (s0, p.2)
      | .corr, some q => (s0.coreEvent q, p.2)
      | .corr, none => (s0, p.2)
      | _, q =>
        let s1 := s0.modCore k (fun x => { x with accBad := Sparse.set (fun _ => false) x.accBad i true })
        ((match q with | some q => s1.ueEvent q | none => s1), { p.2 with ue := true })
    else p) (s, t)

/-- Stream the vectors of an MMUL, the `j`-th being next; a vector that cannot be read does not enter, and its tile
closes (R79, R90, R96). `errs` is what the accumulator's code finds. -/
def State.streamVecs (s : State) (k : Nat) (e : MatEntry) (h : HeldBuf) (errs : List (BitVec 16 × Upset)) (t : Tile) (j : Nat) :
    Nat → State
  | 0 =>
    let s := (s.modCore k (fun x => (x.putTile t).dropEntry e)).fenSet k (bit e.f 16) (bits e.f 15 4)
    (s.streamed k (matPeriod (bits e.f 54 53) h.fmt) j).settleDiscards k
  | n + 1 =>
    let sf := bits e.f 51 48
    let fmt := (Fmt.ofCode sf).getD .fp32
    let off := opBase e.opw + j * opStride e.opw
    let (s1, d, st) := s.rowRead k e.ctx.val off (matBytes fmt h.k)
    if st ≠ 0 then
      ((s1.streamed k (matPeriod (bits e.f 54 53) h.fmt) j).closeTileAt k t e.seq).matFault k e st off
    else
      let vec := rowElems fmt h.k (clean d)
      let base := s.fld (R.MA_CTX_ACC k e.ctx.val) 9 0
      let (s2, t2) := s1.accErrors k base t j errs
      let (y, t') := (s2.core k).accVector base t2 j (contribution (bits e.f 54 53) h.fmt sf h.rows vec)
      (s2.setCore k { y with last := some ⟨matHbuf e.f, bits e.f 54 53, vec⟩ }).streamVecs k e h errs t' (j + 1) n

/-- Start an MMUL: it opens its tile, or finds it (R81); a tile that a write of MA_CTX_ACC_k closed meanwhile is taken as
one that starts empty of flags. -/
def State.startMmul (s : State) (k : Nat) (e : MatEntry) (errs : List (BitVec 16 × Upset)) : State :=
  let x := s.core k
  let h := x.held (matHbuf e.f)
  let row := bits e.f 37 28
  let nvec := bits e.f 27 20
  let base := s.fld (R.MA_CTX_ACC k e.ctx.val) 9 0
  let s := s.riseFromZero k
  match x.tileFor e.ctx row nvec e.seq with
  | some t =>
    if bit e.f 52 then
      let t := { t with live := true }
      (s.modCore k (fun x => (x.putTile t).zeroTile base t)).streamVecs k e h errs t 0 (nvec + 1)
    else s.streamVecs k e h errs t 0 (nvec + 1)
  | none =>
    let t : Tile := ⟨e.ctx, row, nvec, h.role, h.w, matAccFmt (bits e.f 54 53) h.fmt, e.scw, (scaleProduct e.scw).1, e.seq,
      none, false, false, false, false, true⟩
    (if bit e.f 52 then s.modCore k (fun x => x.zeroTile base t) else s).streamVecs k e h errs t 0 (nvec + 1)

/-- MMUL_STREAM (R79); `errs` is what the code of the accumulator words it reads finds (R103). -/
def execMmulStream (k : CoreId) (errs : List (BitVec 16 × Upset)) (s : State) : Out :=
  .next (match s.streamReady k.val with
    | some e => s.startMmul k.val e errs
    | none => s)

/-- A drained element: its bytes (none where it is poisoned), and whether it is NaN, infinite, or overflowed in scaling
(R62, R63, R103, R106). -/
structure Drained where
  bytes : List TByte
  nan   : Bool
  inf   : Bool
  ovf   : Bool
  deriving DecidableEq, Repr

/-- Multiply by S and round once, ±max finite on a finite overflow (R62, R63). -/
def scaleF32 (v : Num) (sc : Nat) : Conv :=
  let p := Num.mul v (f32 sc)
  fp32P.conv .rne true p

/-- Scale an FP32X2 pair (R62); the result meets R48 (R106). -/
def scaleX2 (h t sc : Nat) : Conv :=
  let a := scaleF32 (f32 h) sc
  let b := scaleF32 (f32 t) sc
  if a.ofl || !(f32 a.val).isFin || (f32 a.val).isZero then ⟨a.val, false, a.ofl || b.ofl, false⟩
  else
    let sum := Num.add false (f32 a.val) (f32 b.val)
    if toF32 sum = a.val then ⟨a.val + b.val * 2 ^ 32, false, b.ofl, false⟩
    else
      let r := convX2 .rne true sum
      ⟨r.val, false, b.ofl || r.ofl, false⟩

/-- One element of a drain. -/
def CoreState.drainElem (x : CoreState) (base df : Nat) (t : Tile) (j w : Nat) : Drained :=
  let r := vecRow base t.row t.afmt j
  let bad := x.accPoison r w || (t.afmt == 14 && x.accPoison (r + 1) w)
  let head := x.accWord r w
  let cv : Conv :=
    if df = 9 then ⟨head, false, false, false⟩
    else if t.afmt = 14 then scaleX2 head (x.accWord (r + 1) w) t.s
    else if t.afmt = 9 then scaleF32 (Fmt.value .int32 head) t.s
    else scaleF32 (f32 head) t.s
  let n := if df = 14 then 8 else 4
  if bad then ⟨List.replicate n none, false, false, false⟩
  else
    let v := f32 (cv.val % 2 ^ 32)
    ⟨carried (leBytes n cv.val), df != 9 && v.isNan, df != 9 && v.isInf, cv.ofl⟩

/-- The words that bytes at an offset leave poisoned. -/
def poisonedWords (off : Nat) (d : List TByte) : List Nat :=
  (wordsOf off d.length).filter (fun w => (List.range 8).any (fun i => decide (off ≤ 8 * w + i) && d.getD (8 * w + i - off) (some 0) == none))

/-- The part of a row that a drain writes: a word at its start or end that an earlier row of the drain has poisoned stays
poisoned, and no merge is asked for it (R103: a poisoned element is no fault of the drain). -/
def drainPart (own : List Nat) (off : Nat) (d : List TByte) : Nat × List TByte :=
  let skip := if off % 8 ≠ 0 ∧ own.contains (off / 8) then min d.length (8 - off % 8) else 0
  let tail := (off + d.length) % 8
  let cut := if tail ≠ 0 ∧ own.contains ((off + d.length) / 8) then tail else 0
  (off + skip, (d.take (d.length - cut)).drop skip)

/-- A drain's rows, one after the other; a write that cannot be made stops it (R108, R109, R161, R186). `own` holds the words
that its poisoned elements have poisoned. -/
def State.drainRows (s : State) (k : Nat) (e : MatEntry) (errs : List (BitVec 16 × Upset)) (t : Tile) (inf : Bool)
    (own : List Nat) (j : Nat) : Nat → State × Tile × Bool × Status × Nat
  | 0 => (s, t, inf, 0, 0)
  | n + 1 =>
    let base := s.fld (R.MA_CTX_ACC k e.ctx.val) 9 0
    let (s, t) := s.accErrors k base t j errs
    let x := s.core k
    let es := (List.range t.w).map (x.drainElem base (bits e.f 37 34) t j)
    let t := { t with nan := t.nan || es.any (fun d => d.nan), ovf := t.ovf || es.any (fun d => d.ovf) }
    let off := opBase e.opw + j * opStride e.opw
    let p := drainPart own off (es.flatMap (fun d => d.bytes))
    let (s1, st) := if p.2 = [] then (s, 0) else s.rowWrite k e.ctx.val p.1 p.2
    if st ≠ 0 then (s1, t, inf, st, off)
    else s1.drainRows k e errs t (inf || es.any (fun d => d.inf)) (own ++ poisonedWords p.1 p.2) (j + 1) n

/-- The tile status word (R111). -/
def tileStatus (e : MatEntry) (t : Tile) (inf : Bool) : Nat :=
  bits e.f 55 46 * 2 ^ 30 + bits e.f 45 38 * 2 ^ 22 + t.afmt * 2 ^ 18 + inf.toNat * 16 + t.ue.toNat * 8 + t.nan.toNat * 4 +
    t.ovf.toNat * 2 + t.sat.toNat

/-- The drain that may run: the first of the queue's, its rows free of earlier work (R80, R109). -/
def CoreState.drainNext (x : CoreState) : Option MatEntry :=
  match x.mq.find? (fun e => e.kind = .mdrain) with
  | some e => if x.drainReady e then some e else none
  | none => none

/-- Run a drain (R108, R109, R111). One that faults while it runs leaves its tile open and merges no flags: DESIGN CHOICE, log
entry 90. -/
def State.runDrain (s : State) (k : Nat) (e : MatEntry) (errs : List (BitVec 16 × Upset)) : State :=
  match (s.core k).tileFor e.ctx (bits e.f 55 46) (bits e.f 45 38) e.seq with
  | none => (s.modCore k (fun x => x.dropEntry e)).fenSet k (bit e.f 16) (bits e.f 15 4)
  | some t =>
    let nvec := bits e.f 45 38
    let (s1, t1, inf, st, off) := s.drainRows k e errs t false [] 0 (nvec + 1)
    if st ≠ 0 then (s1.modCore k (fun x => x.putTile { t1 with cseq := none })).matFault k e st off
    else
      let so := opBase e.opw + (nvec + 1) * opStride e.opw
      let (s2, st2) := if bit e.f 27 then s1.rowWrite k e.ctx.val so (carried (leBytes 8 (tileStatus e t1 inf))) else (s1, 0)
      if st2 ≠ 0 then (s2.modCore k (fun x => x.putTile { t1 with cseq := none })).matFault k e st2 so
      else
        let s3 := (s2.mergeTile k t1).modCore k (fun x =>
          if bit e.f 28 then ((x.putTile t1).dropEntry e).dropClosed t1 else (x.dropTile t1).dropEntry e)
        (s3.fenSet k (bit e.f 16) (bits e.f 15 4)).settleDiscards k

/-- MDRAIN_RUN (R109); `errs` is what the code of the accumulator words it reads finds (R103). -/
def execMdrainRun (k : CoreId) (errs : List (BitVec 16 × Upset)) (s : State) : Out :=
  .next (match (if s.shut k.val then none else (s.core k.val).drainNext) with
    | some e => s.runDrain k.val e errs
    | none => s)

/-- The words that a queued MHOLD or MMUL reads. -/
def CoreState.operandWords (x : CoreState) (e : MatEntry) : List Nat :=
  let fmt (c : Nat) := (Fmt.ofCode c).getD .fp32
  let rs := match e.kind with
    | .mhold => rowRanges (opBase e.opw) (opStride e.opw) (matBytes (fmt (bits e.f 53 50)) (bits e.f 37 32 + 1))
        (bits e.f 44 38 + 1)
    | .mmul => rowRanges (opBase e.opw) (opStride e.opw) (matBytes (fmt (bits e.f 51 48)) (x.held (matHbuf e.f)).k)
        (bits e.f 27 20 + 1)
    | _ => []
  rs.flatMap (fun r => wordsOf r.1 r.2)

/-- MATRIX_OPERAND_READ_FAULT (R90): the load or the stream that is ready reads a word to whose stored bits has
happened what the command says. -/
def execMatrixOperandReadFault (k : CoreId) (word : BitVec 19) (u : Upset) (s : State) : Out :=
  let x := s.core k.val
  let hit (m : MatEntry) : Bool := (x.operandWords m).contains word.toNat
  let s1 := s.upsetWord k.val word.toNat u
  .next (match x.holdReady, s.streamReady k.val with
    | some m, r =>
      if hit m then s1.loadHold k.val m
      else match r with
        | some n => if hit n then s1.startMmul k.val n [] else s
        | none => s
    | none, some n => if hit n then s1.startMmul k.val n [] else s
    | none, none => s)

/-! ## Ballast and level (R84 to R86) -/

/-- Whether a real vector is ready: the one that an MMUL may start with (R79, R84). -/
def CoreState.vectorReady (x : CoreState) : Bool := x.mmulReady.isSome

/-- BALLAST (R84 step 3, R86): one CCLK; it reads and writes nothing but the credit and its counter. -/
def execBallast (k : CoreId) (s : State) : Out :=
  let q := min 96 (s.credit k.val + s.level k.val)
  .next (if s.bitOf (R.MA_BALLAST_CTL k.val) 31 ∧ s.level k.val > 0 ∧ q ≥ 16 ∧ (s.core k.val).vectorReady = false then
      (s.setCredit k.val (q - 16)).wrapInc (R.MA_BALLAST_CNT k.val) 63 0
    else s)

/-- LEVEL_RISE (R85): at the end of a rise interval in which a real vector is ready. -/
def execLevelRise (k : CoreId) (s : State) : Out :=
  let l := s.level k.val
  .next (if (s.core k.val).vectorReady ∧ l < s.lmax k.val then
      s.setLevel k.val (if s.fld (R.MA_RISE_CTL k.val) 7 0 = 0 then s.lmax k.val else l + 1)
    else s)

/-- LEVEL_FALL (R85): when the hold or a ramp interval ends with no real vector ready. -/
def execLevelFall (k : CoreId) (s : State) : Out :=
  let l := s.level k.val
  .next (if (s.core k.val).vectorReady = false ∧ l > 0 then
      s.setLevel k.val (if s.fld (R.MA_BALLAST_CTL k.val) 7 0 = 0 then 0 else l - 1)
    else s)

end Sys2Proof.Machine
end

