-- ==== Sys2Proof/Machine/VectorOps.lean ====
section
/-!
DEFINITION. Shared operations of the vector engine (chapter 05): the operation set and its arithmetic, lanes, registers,
the stochastic-rounding generator, newt images.
-/

namespace Sys2Proof.Machine

/-! ## Results that a bound gives (R120) -/

/-- The integer square root, by bits from `2^n` down. -/
def isqrt (x : Nat) : Nat → Nat → Nat
  | 0, r => r
  | n + 1, r => let t := r + 2 ^ n; isqrt x n (if t * t ≤ x then t else r)

/-- Fixed-point bits of the approximations. -/
def fixP : Nat := 128

/-- 2^(f/2^128) for a fraction f, in fixed point: the product of the roots of 2 that its bits select. -/
def exp2Frac (f : Nat) : Nat → Nat → Nat → Nat
  | 0, _, acc => acc
  | n + 1, root, acc =>
    let r := isqrt (root * 2 ^ fixP) (fixP + 2) 0
    let i := fixP - 70 + n
    exp2Frac f n r (if f.testBit i then acc * r / 2 ^ fixP else acc)

/-- 2^x as a number close to it, for x = ±m·2^e of moderate size. -/
def exp2Near (neg : Bool) (m : Nat) (e : Int) : Num :=
  let fx := roundGrid .rtz neg m e (-(fixP : Int))
  let v : Int := if neg then - (fx.n : Int) else fx.n
  let n := v / (2 ^ fixP : Nat)
  let f := (v % (2 ^ fixP : Nat)).toNat
  .fin false (exp2Frac f 70 (2 * 2 ^ fixP) (2 ^ fixP)) (n - fixP)

/-- The bits of log₂ y for y in [1, 2) in fixed point. -/
def log2Bits : Nat → Nat → Nat → Nat
  | 0, _, acc => acc
  | n + 1, y, acc =>
    let q := y * y / 2 ^ fixP
    if q ≥ 2 * 2 ^ fixP then log2Bits n (q / 2) (2 * acc + 1) else log2Bits n q (2 * acc)

/-- log₂ (m·2^e) as a number close to it. -/
def log2Near (m : Nat) (e : Int) : Num :=
  let b := bitLen m - 1
  let y := m * 2 ^ fixP / 2 ^ b
  (Dy.add ⟨e + b, 0⟩ ⟨(log2Bits 100 y 0 : Nat), -100⟩).toNum false

/-- 1/(m·2^e) as a number close to it. -/
def rcpNear (neg : Bool) (m : Nat) (e : Int) : Num := .fin neg (2 ^ (bitLen m + 120) / m) (-(bitLen m : Int) - 120 - e)

/-- √(m·2^e) rounded toward zero far beyond any format, with a sticky bit below. -/
def sqrtNear (m : Nat) (e : Int) : Num :=
  let (m', e') := if e % 2 = 0 then (m, e) else (2 * m, e - 1)
  let n := m' * 2 ^ 240
  let r := isqrt n (bitLen n / 2 + 1) 0
  .fin false (2 * r + (if r * r = n then 0 else 1)) (e' / 2 - 121)

/-- The distance from an exact magnitude to a pattern is at most `u` units in the last place of the magnitude. -/
def withinUlps (p : FloatP) (u : Nat) (x : Num) (b : Nat) : Bool :=
  match x, p.decode b with
  | .fin neg m e, .fin n2 m2 e2 =>
    let q := (roundFloat p .rne neg m e).q
    let d := Dy.add (Num.dy (.fin neg m e)) (Num.dy (.fin (!n2) m2 e2))
    decide (Num.cmp (.fin false d.m.natAbs d.e) (.fin false u q) ≤ 0)
  | _, _ => false

/-- A result within `u` units in the last place of a number: the nearest value moved by an open choice, where that stays
within the bound (R120). -/
def freeNear (p : FloatP) (u : Nat) (x : Num) (choice : Nat) : Nat :=
  let r := (p.conv .rne false x).val
  let d := choice % (2 * u + 1)
  let mag := r % 2 ^ (p.eb + p.mb)
  let sign := r - mag
  let b := sign + (mag + d - u)
  if mag + d ≥ u ∧ withinUlps p u x b = true then b else r

/-- A number for a float format. -/
def fmtKey (f : Fmt) : Nat := f.fp.eb * 64 + f.fp.mb

/-- EXP2 (R120). -/
def vExp2 (f : Fmt) (a : Nat) : Nat :=
  let p := f.fp
  match p.decode a with
  | .nan => p.nanBits
  | .inf neg => if neg then 0 else p.infBits
  | .fin neg m e =>
    if m = 0 then (p.conv .rne false (.fin false 1 0)).val
    else if e + bitLen m > 12 then (if neg then 0 else p.infBits)
    else
      let i := roundGrid .rtz neg m e 0
      let x := exp2Near neg m e
      let ex := Num.fin false 1 (if neg then - (i.n : Int) else i.n)
      if f = .fp32 ∧ i.nx = false ∧ (p.conv .rne false ex).nx = false then (p.conv .rne false ex).val
      else freeNear p (if f = .fp32 then 2 else 1) x (Config.exp2 (fmtKey f) a)

/-- LOG2 (R120). -/
def vLog2 (f : Fmt) (a : Nat) : Nat :=
  let p := f.fp
  match p.decode a with
  | .nan => p.nanBits
  | .inf neg => if neg then p.nanBits else p.infBits
  | .fin neg m e =>
    if m = 0 then p.withSign true p.infBits
    else if neg then p.nanBits
    else
      let b := bitLen m - 1
      if m = 2 ^ b ∧ (f = .fp32 ∨ e + b = 0) then (p.conv .rne false ((Dy.ofInt (e + b)).toNum false)).val
      else freeNear p (if f = .fp32 then 2 else 1) (log2Near m e) (Config.log2 (fmtKey f) a)

/-- RCP (R120); exact on a power of two, as the example under R150 has it. -/
def vRcp (f : Fmt) (a : Nat) : Nat :=
  let p := f.fp
  match p.decode a with
  | .nan => p.nanBits
  | .inf neg => p.withSign neg 0
  | .fin neg m e =>
    if m = 0 then p.withSign neg p.infBits
    else
      let b := bitLen m - 1
      if m = 2 ^ b then (p.conv .rne false (.fin neg 1 (-(e + b)))).val
      else freeNear p 1 (rcpNear neg m e) (Config.rcp (fmtKey f) a)

/-- SQRT, rounded once (R120). -/
def vSqrt (f : Fmt) (a : Nat) : Nat :=
  let p := f.fp
  match p.decode a with
  | .nan => p.nanBits
  | .inf neg => if neg then p.nanBits else p.infBits
  | .fin neg m e =>
    if m = 0 then a
    else if neg then p.nanBits
    else (p.conv .rne false (sqrtNear m e)).val

/-- RSQRT (R120). -/
def vRsqrt (f : Fmt) (a : Nat) : Nat :=
  let p := f.fp
  match p.decode a with
  | .nan => p.nanBits
  | .inf neg => if neg then p.nanBits else 0
  | .fin neg m e =>
    if m = 0 then p.withSign neg p.infBits
    else if neg then p.nanBits
    else match sqrtNear m e with
      | .fin _ m' e' => freeNear p 1 (rcpNear false m' e') (Config.rsqrt (fmtKey f) a)
      | _ => p.nanBits

/-! ## The operation set (R119 to R121) -/

/-- Classes of R119: 0 float, 1 int, 2 narrow, 3 FP64, 4 FP32X2, 5 reserved. -/
def vClass (c : Nat) : Nat :=
  if c ≤ 2 then 0 else if c = 3 then 3 else if c = 9 ∨ c = 10 then 1 else if c = 14 then 4 else if c ≥ 15 then 5 else 2

/-- Whether an operation code is reserved (R119). -/
def vReserved (fn : Nat) : Bool := decide (fn ≥ 0x1D)

/-- Whether an operation accepts a type class in a newt program (R119). -/
def vTypeOk (fn cl : Nat) : Bool :=
  if fn = 0x01 ∨ fn = 0x0E ∨ fn = 0x0F then decide (cl ≤ 2)
  else if fn = 0x0A ∨ fn = 0x1C ∨ (0x10 ≤ fn ∧ fn ≤ 0x14) then decide (cl = 0)
  else if 0x15 ≤ fn ∧ fn ≤ 0x1B then decide (cl = 1)
  else decide (cl ≤ 1)

/-- The operations that chain mode runs on FP64 (R119). -/
def vFp64Ok (fn : Nat) : Bool :=
  [0x00, 0x01, 0x02, 0x03, 0x04, 0x05, 0x06, 0x07, 0x08, 0x09, 0x0A, 0x0B, 0x0C, 0x0D, 0x1C, 0x0E, 0x14].contains fn

/-- Whether an operation uses operand A. -/
def vUsesA (fn : Nat) : Bool := fn != 0

/-- Whether an operation uses operand B (CVT holds other fields there). -/
def vUsesB (fn : Nat) : Bool :=
  [0x02, 0x03, 0x04, 0x05, 0x06, 0x07, 0x0A, 0x0B, 0x0C, 0x0D, 0x0E, 0x15, 0x16, 0x17, 0x18, 0x19, 0x1A, 0x1B, 0x1C].contains fn

/-- Whether an operation uses operand C. -/
def vUsesC (fn : Nat) : Bool := fn == 0x05 || fn == 0x0E

/-- Whether an operation is a compare, whose result is INT32 (R119). -/
def vCompare (fn : Nat) : Bool := fn == 0x0B || fn == 0x0C || fn == 0x0D || fn == 0x1C

/-- A compare result. -/
def vBool (b : Bool) : Nat := if b then 0xFFFF_FFFF else 0

/-- CCLK that an operation occupies per block of a newt program (R119). -/
def vWeight (fn : Nat) : Nat := if 0x10 ≤ fn ∧ fn ≤ 0x14 then 4 else 1

/-- An operation on float patterns (R119, R120). -/
def vFloat (fn : Nat) (f : Fmt) (a b c : Nat) : Nat :=
  let p := f.fp
  let x := p.decode a
  let y := p.decode b
  let z := p.decode c
  let half := 2 ^ (p.eb + p.mb)
  let rnd (v : Num) : Nat := (p.conv .rne false v).val
  match fn with
  | 0x01 => a
  | 0x02 => rnd (Num.add false x y)
  | 0x03 => rnd (Num.add false x y.negate)
  | 0x04 => rnd (Num.mul x y)
  | 0x05 => rnd (Num.add false (Num.mul x y) z)
  | 0x06 => maxF p a b
  | 0x07 => minF p a b
  | 0x08 => if a < half then a + half else a - half
  | 0x09 => a % half
  | 0x0A => a % half + b / half * half
  | 0x0B => vBool (Num.eq x y)
  | 0x0C => vBool (Num.lt x y)
  | 0x0D => vBool (Num.le x y)
  | 0x10 => vExp2 f a
  | 0x11 => vLog2 f a
  | 0x12 => vRcp f a
  | 0x13 => vRsqrt f a
  | 0x14 => vSqrt f a
  | 0x1C => vBool (x.isNan || y.isNan)
  | _ => 0

/-- An operation on integer patterns of `w` bits (R119, R121). -/
def vInt (fn w a b c : Nat) : Nat :=
  let x := signed w a
  let y := signed w b
  let z := signed w c
  match fn with
  | 0x01 => a
  | 0x02 => wrap w (x + y)
  | 0x03 => wrap w (x - y)
  | 0x04 => wrap w (x * y)
  | 0x05 => wrap w (x * y + z)
  | 0x06 => if x < y then b else a
  | 0x07 => if y < x then b else a
  | 0x08 => wrap w (-x)
  | 0x09 => wrap w (x.natAbs : Int)
  | 0x0B => vBool (decide (x = y))
  | 0x0C => vBool (decide (x < y))
  | 0x0D => vBool (decide (x ≤ y))
  | 0x15 => a &&& b
  | 0x16 => a ||| b
  | 0x17 => a ^^^ b
  | 0x18 => a <<< (b % w) % 2 ^ w
  | 0x19 => wrap w (x / (2 ^ (b % w) : Nat))
  | 0x1A => a >>> (b % w)
  | 0x1B => wrap w (max (-(2 ^ (w - 1) : Nat) : Int) (min ((2 ^ (w - 1) : Nat) - 1) (x + y)))
  | _ => 0

/-- One operation of R119 but CVT, on patterns; operands narrower than their container have its upper bits ignored (R116).
`c` is the whole container for SEL. -/
def vecOp (fn : Nat) (f : Fmt) (a b c : Nat) : Nat :=
  let m (x : Nat) : Nat := x % 2 ^ f.bitsOf
  if fn = 0x0E then (if c % 2 ^ 32 ≠ 0 then m a else m b)
  else if f.isInt then vInt fn f.bitsOf (m a) (m b) (m c)
  else vFloat fn f (m a) (m b) (m c)

/-! ## Registers and lanes (R116) -/

/-- Whether a format occupies a register pair (R116). -/
def isPair (f : Fmt) : Bool := decide (f.bitsOf = 64)

/-- Container of register `r`, lane `l`. -/
def CoreState.lane (x : CoreState) (r l : Nat) : Nat := (Sparse.get (fun _ => 0#32) x.vregs (r * 64 + l)).toNat

/-- The pattern of lane `l` of a register or pair in a format. -/
def CoreState.vget (x : CoreState) (f : Fmt) (r l : Nat) : Nat :=
  if isPair f then x.lane r l + x.lane (r + 1) l * 2 ^ 32 else x.lane r l % 2 ^ f.bitsOf

/-- Put one container; a write makes an uncorrectable container good (R142). -/
def CoreState.setLane (x : CoreState) (r l v : Nat) : CoreState :=
  { x with vregs := Sparse.set (fun _ => 0#32) x.vregs (r * 64 + l) (BitVec.ofNat 32 v)
           vbad := Sparse.set (fun _ => false) x.vbad (r * 64 + l) false }

/-- Put lane `l` of a register or pair. -/
def CoreState.vput (x : CoreState) (pair : Bool) (r l v : Nat) : CoreState :=
  if pair then (x.setLane r l v).setLane (r + 1) l (v / 2 ^ 32) else x.setLane r l v

/-- The lane numbers. -/
def lanes : List Nat := List.range 64

/-- Put every lane of a register or pair. -/
def CoreState.vputAll (x : CoreState) (pair : Bool) (r : Nat) (vs : List Nat) : CoreState :=
  (lanes.zip vs).foldl (fun x p => x.vput pair r p.1 p.2) x

/-- Whether some container of the registers listed is uncorrectable (R142). -/
def CoreState.vregBad (x : CoreState) (rs : List Nat) : Bool :=
  rs.any (fun r => lanes.any (fun l => Sparse.get (fun _ => false) x.vbad (r * 64 + l)))

/-- The registers of an operand. -/
def vregsOf (pair : Bool) (r : Nat) : List Nat := if pair then [r, r + 1] else [r]

/-- Set every register to zero (R118, R421). -/
def CoreState.zeroVregs (x : CoreState) : CoreState := { x with vregs := [], vbad := [] }

/-- Offsets a stream or a load must be a multiple of (R72, R127, R132). -/
def vAlign (f : Fmt) : Nat :=
  match f with
  | .fp64 | .fp32x2 => 8
  | .fp32 | .int32 => 4
  | .bf16 | .fp16 | .int16 => 2
  | .e3m2 | .e2m3 => 3
  | _ => 1

/-- Bytes of `n` elements of a block: whole 3-byte groups of six-bit elements (R72). -/
def blockBytes (f : Fmt) (n : Nat) : Nat := matBytes f n

/-- The elements of a run of bytes. -/
def unpack (f : Fmt) (n : Nat) (b : List Byte) : List Nat := (List.range n).map (packedAt f b)

/-- Elements packed into the bytes of a block. The bits of the last byte or 3-byte group past the last element are zero: DESIGN
CHOICE, log entry 88 (R47 states the packing, not these bits). -/
def packBlock (f : Fmt) (xs : List Nat) : List Byte := leBytes (blockBytes f xs.length) (packBits f.bitsOf xs)

/-! ## The generator (R143) -/

/-- One draw: the new state and the value. -/
def rngDraw (x : BitVec 32) : BitVec 32 × Nat :=
  let x := x ^^^ (x <<< 13)
  let x := x ^^^ (x >>> 17)
  let x := x ^^^ (x <<< 5)
  (x, bits x 31 16)

/-- Generator state of a lane; a context's generators start as SEED 0 sets them. -/
def CtxState.rngAt (t : CtxState) (l : Nat) : BitVec 32 := Sparse.get (rngSeed 0) t.rng l

/-- Put a lane's generator state. -/
def CtxState.setRng (t : CtxState) (l : Nat) (x : BitVec 32) : CtxState := { t with rng := Sparse.set (rngSeed 0) t.rng l x }

/-! ## Indications (R56, R134, R146) -/

/-- OR bits into VE_XFLAGS_k. -/
def State.xflags (s : State) (k c v : Nat) : State :=
  s.setReg (R.VE_XFLAGS k c) (s.reg (R.VE_XFLAGS k c) ||| BitVec.ofNat 64 v)

/-- The indications of a conversion as bits of VE_XFLAGS_k. -/
def convFlags (v : Conv) : Nat := v.nx.toNat + 2 * v.ofl.toNat + 4 * v.nv.toNat

/-- ONAN and OINF of an output element (R136). -/
def outFlags (f : Fmt) (b : Nat) : Nat :=
  if f.isInt then 0 else let v := f.value b; (if v.isNan then 8 else 0) + (if v.isInf then 16 else 0)

/-- A fault of a vector instruction (R142, R161); `uop` is the failing micro-operation. -/
def State.vecFault (s : State) (k : Nat) (e : VecEntry) (st : Status) (addr : Nat) (uop : Nat := 0xFF) : State :=
  (s.faultCtx k e.ctx
    { unit := 3, status := st, seq := e.seq, pc := e.pc, instr := instrWord e.kind.opcode e.f, addr := addr, uop := uop }).settleDiscards k

/-! ## Newt images (R122 to R125) -/

/-- A newt program's header. -/
def newtHdr (img : List Byte) : Nat := leAt img 0 8

def newtNops (h : Nat) : Nat := natBits h 5 0
def newtNin (h : Nat) : Nat := natBits h 10 8
def newtNout (h : Nat) : Nat := natBits h 13 12

/-- Format code of input stream `i` (R122). -/
def newtIfmt (h i : Nat) : Nat := natBits h (19 + 4 * i) (16 + 4 * i)

/-- Format code of output stream `i`. -/
def newtOfmt (h i : Nat) : Nat := natBits h (35 + 4 * i) (32 + 4 * i)

/-- Micro-operation word `i`. -/
def newtUop (img : List Byte) (i : Nat) : Nat := leAt img (8 + 4 * i) 4

def uopFn (u : Nat) : Nat := natBits u 31 26
def uopType (u : Nat) : Nat := natBits u 25 22
def uopDst (u : Nat) : Nat := natBits u 21 17
def uopA (u : Nat) : Nat := natBits u 16 12
def uopB (u : Nat) : Nat := natBits u 11 7
def uopC (u : Nat) : Nat := natBits u 6 2
def uopTarget (u : Nat) : Nat := natBits u 11 8

/-- A source operand code (R124). -/
def srcOk (h c : Nat) : Bool :=
  decide (c < 0x10) || (decide (0x10 ≤ c) && decide (c < 0x14) && decide (c - 0x10 < newtNin h)) ||
    (decide (0x14 ≤ c) && decide (c < 0x18))

/-- A destination operand code (R124). -/
def dstOk (h c : Nat) : Bool :=
  decide (c < 0x10) || ((c == 0x18 || c == 0x19) && decide (c - 0x18 < newtNout h))

/-- Every operand code of a micro-operation is valid (R124, R125 check 4d). -/
def uopOperandsOk (h u : Nat) : Bool :=
  let fn := uopFn u
  (if fn = 0 then uopDst u == 0x1F else dstOk h (uopDst u)) &&
  (if vUsesA fn then srcOk h (uopA u) else uopA u == 0x1F) &&
  (fn == 0x0F || (if vUsesB fn then srcOk h (uopB u) else uopB u == 0x1F)) &&
  (fn == 0x0F || (if vUsesC fn then srcOk h (uopC u) else uopC u == 0x1F))

/-- Result format code of a micro-operation (R125). -/
def uopResult (u : Nat) : Nat :=
  if uopFn u = 0x0F then uopTarget u else if vCompare (uopFn u) then 9 else uopType u

/-- Check 4f: an input operand in TYPE, an output in the result's format. -/
def uopStreamsOk (h u : Nat) : Bool :=
  let fn := uopFn u
  let inOk (used : Bool) (c : Nat) : Bool := !used || !(decide (0x10 ≤ c) && decide (c < 0x14)) || newtIfmt h (c - 0x10) == uopType u
  inOk (vUsesA fn) (uopA u) && inOk (vUsesB fn) (uopB u) && inOk (vUsesC fn) (uopC u) &&
    (!(uopDst u == 0x18 || uopDst u == 0x19) || newtOfmt h (uopDst u - 0x18) == uopResult u)

/-- The checks of one micro-operation, in their order (R125 step 4). -/
def uopCheck (h u : Nat) : Option Status :=
  let fn := uopFn u
  let cvt := fn == 0x0F
  firstOf
    [(decide (natBits u 1 0 ≠ 0) || (cvt && decide (natBits u 3 2 ≠ 0)), 0x0502), (vReserved fn, 0x0503),
     (uopType u = 15, 0x0202), (cvt && decide (uopTarget u = 15), 0x0202), (cvt && decide (natBits u 6 4 ≥ 6), 0x0201),
     (!uopOperandsOk h u, 0x0504),
     (!vTypeOk fn (vClass (uopType u)) || (cvt && (uopTarget u == 3 || uopTarget u == 14)), 0x0505),
     (!uopStreamsOk h u, 0x0505)]

/-- Stream format codes of an image. -/
def newtFmts (h : Nat) : List Nat :=
  (List.range (newtNin h)).map (newtIfmt h) ++ (List.range (newtNout h)).map (newtOfmt h)

/-- Check an image (R125): the status and the failing micro-operation. With NOUT = 0 no output format field counts as unused but
OFMT1, so that image fails check 2: DESIGN CHOICE, log entry 91. -/
def newtCheck (img : List Byte) : Option (Status × Nat) :=
  let h := newtHdr img
  let us := (List.range (newtNops h)).map (newtUop img)
  let head : Option Status := firstOf
    [(decide (natBits h 63 40 ≠ 0) || decide (natBits h 15 14 ≠ 0) || decide (natBits h 11 11 ≠ 0) || decide (natBits h 7 6 ≠ 0) ||
        (List.range 4).any (fun i => decide (i ≥ newtNin h) && decide (newtIfmt h i ≠ 0)) ||
        (decide (newtNout h ≤ 1) && decide (newtOfmt h 1 ≠ 0)), 0x0502),
     (newtNops h = 0 || decide (newtNops h > 48) || decide (newtNin h > 4) || newtNout h == 0 || newtNout h == 3, 0x0506),
     ((newtFmts h).any (fun c => c == 15), 0x0202), ((newtFmts h).any (fun c => c == 3 || c == 14), 0x0204)]
  match head with
  | some st => some (st, 0xFF)
  | none =>
    match ((List.range us.length).zip us).findSome? (fun p => (uopCheck h p.2).map (fun st => (st, p.1))) with
    | some r => some r
    | none =>
      if (List.range (newtNout h)).all (fun o => (us.filter (fun u => uopDst u == 0x18 + o)).length == 1) then none
      else some (0x0504, 0xFF)

/-- Write VE_CTX_k (R130): slots that leave the mask become empty. -/
def State.wrVeCtx (s : State) (k c : Nat) (v : Word64) : State :=
  let a := R.VE_CTX k c
  let clash := (List.range 4).any (fun d => d != c && bits (s.reg (R.VE_CTX k d) &&& v) 7 0 != 0)
  if clash then s.regErr a 0x0510
  else
    let gone := (List.range 8).filter (fun j => s.bitOf a j && !bit v j)
    (s.modCore k (fun x => { x with slots := gone.foldl (fun m j => Sparse.set (fun _ => []) m j []) x.slots })).setReg a v

end Sys2Proof.Machine
end

