-- ==== Sys2Proof/Machine/Vector.lean ====
section
/-!
DEFINITION. The vector engine's commands (chapter 05): the checks at issue, and what each instruction does when the engine
takes it from the front of its queue.
-/

namespace Sys2Proof.Machine

/-! ## Issue -/

/-- Place a vector instruction in its queue with the scalar values it reads (R156). -/
def State.queueVec (s : State) (k : Nat) (c : CtxId) (kind : VecKind) (f : IBits) (args : List Word64) (late : Bool := false) :
    State :=
  s.modCore k (fun x => { x with vq := x.vq ++ [⟨kind, c, x.seqNo, s.pc k c.val, f, args, late⟩] })

/-- Issue a vector instruction: it stalls while its queue is full (R141, R155), and is checked when it issues (R140). -/
def State.issueVec (s : State) (k op : Nat) (f : IBits) (regs : List Nat) (body : State → CtxId → Issued) : State :=
  s.issue k op f 3 regs fun s c => if (s.core k).vq.length < 8 then body s c else .stall

/-- The format of a code; a reserved code is checked before it is used. -/
def fmtOf (c : Nat) : Fmt := (Fmt.ofCode c).getD .fp32

/-- A pair named by an odd register (R116). -/
def oddPair (f : Fmt) (r : Nat) : Bool := isPair f && decide (r % 2 = 1)

/-- The checks that VLD and VST share (R132, R140). -/
def State.vmemChecks (s : State) (k c : Nat) (f : IBits) : List (Bool × Status) :=
  let w := s.sreg k c (bits f 46 42)
  let fm := fmtOf (bits f 50 47)
  let off := bits w 21 0
  let n := blockBytes fm 64
  [(bits f 41 0 ≠ 0 || decide (bits w 63 22 ≠ 0), 0x0502), (bits f 50 47 = 15, 0x0202), (oddPair fm (bits f 55 51), 0x0508),
   (off % vAlign fm ≠ 0, 0x0509), (off + n > padSize, 0x0101), (!s.owns k c off n, 0x0102)]

/-- VLD at issue (R132, R140). -/
def execVld (k : CoreId) (f : IBits) (s : State) : Out :=
  .next (s.issueVec k.val 0x50 f [bits f 46 42] fun s c =>
    Issued.checked s (s.vmemChecks k.val c.val f) fun _ => .done (s.queueVec k.val c .vld f [s.sreg k.val c.val (bits f 46 42)]))

/-- VST at issue (R132, R140). -/
def execVst (k : CoreId) (f : IBits) (s : State) : Out :=
  .next (s.issueVec k.val 0x51 f [bits f 46 42] fun s c =>
    Issued.checked s (s.vmemChecks k.val c.val f) fun _ => .done (s.queueVec k.val c .vst f [s.sreg k.val c.val (bits f 46 42)]))

/-- Fields of a VOP that its operation leaves unused and that are not zero (R119, R133). A reserved operation, and CVT, which VOP
does not have, leave only the reserved bits: DESIGN CHOICE, log entry 92. -/
def vopUnused (f : IBits) : Bool :=
  let fn := bits f 55 50
  if vReserved fn ∨ fn = 0x0F then decide (bits f 24 0 ≠ 0)
  else
    decide (bits f 24 0 ≠ 0) || (!vUsesA fn && (decide (bits f 45 41 ≠ 0) || decide (bits f 40 36 ≠ 0))) ||
      (!vUsesB fn && (decide (bits f 35 31 ≠ 0) || bit f 25)) || (!vUsesC fn && decide (bits f 30 26 ≠ 0))

/-- VOP at issue (R133, R140). -/
def execVop (k : CoreId) (f : IBits) (s : State) : Out :=
  .next (s.issueVec k.val 0x52 f (if bit f 25 then [bits f 35 31] else []) fun s c =>
    let fn := bits f 55 50
    let ty := bits f 49 46
    let cl := vClass ty
    let p := cl == 3
    let odd (r : Nat) : Bool := p && decide (r % 2 = 1)
    Issued.checked s
      [(vopUnused f, 0x0502), (vReserved fn || decide (fn = 0x0F), 0x0503), (ty = 15, 0x0202),
       (!(if p then vFp64Ok fn else decide (cl ≤ 1) && vTypeOk fn cl), 0x0505),
       ((vUsesA fn && !vCompare fn && odd (bits f 45 41)) || (vUsesA fn && odd (bits f 40 36)) ||
          (vUsesB fn && !bit f 25 && odd (bits f 35 31)) || (decide (fn = 0x05) && odd (bits f 30 26)), 0x0508)] fun _ =>
      .done (s.queueVec k.val c .vop f [s.sreg k.val c.val (bits f 35 31)]))

/-- VCVT at issue (R134, R140). -/
def execVcvt (k : CoreId) (f : IBits) (s : State) : Out :=
  .next (s.issueVec k.val 0x53 f [] fun s c =>
    Issued.checked s
      [(bits f 33 0 ≠ 0, 0x0502), (bits f 55 52 = 15 || decide (bits f 51 48 = 15), 0x0202), (bits f 37 35 ≥ 6, 0x0201),
       (oddPair (fmtOf (bits f 51 48)) (bits f 47 43) || oddPair (fmtOf (bits f 55 52)) (bits f 42 38), 0x0508)] fun _ =>
      .done (s.queueVec k.val c .vcvt f []))

/-- VRED's type rule (R137). -/
def vredTypeOk (rop ty : Nat) : Bool :=
  match rop with
  | 3 => ty == 9
  | 4 => decide (vClass ty = 0) || ty == 3
  | _ => decide (vClass ty ≤ 1) || ty == 3

/-- VRED at issue (R137, R140): SD is pending until the engine has run it (R155). -/
def execVred (k : CoreId) (f : IBits) (s : State) : Out :=
  .next (s.issueVec k.val 0x54 f [bits f 43 39] fun s c =>
    let rop := bits f 55 53
    let ty := bits f 52 49
    Issued.checked s
      [(bits f 37 0 ≠ 0 || (decide (rop ≠ 4) && bit f 38), 0x0502), (decide (rop ≥ 5), 0x050C), (ty = 15, 0x0202),
       (!vredTypeOk rop ty, 0x0505), (oddPair (fmtOf ty) (bits f 48 44), 0x0508)] fun _ =>
      .done ((s.queueVec k.val c .vred f []).modCtx k.val c.val (fun t =>
        if bits f 43 39 = 0 then t else { t with busy := t.busy ++ [bits f 43 39] })))

/-- The last byte's offset plus one of a run of `n` rows; 0 for none. -/
def extentEnd (base stride len n : Nat) : Nat := if n = 0 then 0 else base + (n - 1) * stride + len

/-- Whether two byte extents, each from its BASE to its last byte, share a byte (R129). -/
def extentsMeet (b1 e1 b2 e2 : Nat) : Bool := overlaps b1 (e1 - b1) b2 (e2 - b2)

/-- The rows of a VROW: offsets and lengths of input, output, mask and status (R147). -/
structure RowShape where
  rlen : Nat
  rcnt : Nat
  win  : Word64
  wout : Word64
  wmsk : Word64
  wsts : Word64
  rfn  : Nat
  men  : Bool
  sten : Bool

/-- The shape of a VROW from its fields and scalar words (R138). -/
def rowShape (f : IBits) (args : List Word64) : RowShape :=
  let a (i : Nat) : Word64 := args.getD i 0
  ⟨bits (a 4) 15 0 + 1, bits (a 4) 31 16 + 1, a 0, a 1, a 2, a 3, bits f 55 54, bit f 48, bit f 47⟩

/-- Bytes of an output row. -/
def RowShape.outLen (r : RowShape) : Nat := if r.rfn = 2 then 4 * r.rlen else 4

/-- Bytes of a mask row. -/
def RowShape.mskLen (r : RowShape) : Nat := (r.rlen + 7) / 8

/-- Each operand in use as word and bytes per row: input, output, mask, status. -/
def RowShape.operands (r : RowShape) : List (Word64 × Nat) :=
  [(r.win, 4 * r.rlen), (r.wout, r.outLen)] ++ (if r.men then [(r.wmsk, r.mskLen)] else []) ++ (if r.sten then [(r.wsts, 1)] else [])

/-- Forbidden overlap of a VROW's row ranges: any, but for EXPNORM's exact in-place form (R147). -/
def RowShape.clash (r : RowShape) : Bool :=
  let meet (a b : Word64 × Nat) : Bool :=
    extentsMeet (opBase a.1) (extentEnd (opBase a.1) (opStride a.1) a.2 r.rcnt) (opBase b.1)
      (extentEnd (opBase b.1) (opStride b.1) b.2 r.rcnt)
  let i := (r.win, 4 * r.rlen)
  let o := (r.wout, r.outLen)
  let m := (r.wmsk, r.mskLen)
  let t := (r.wsts, 1)
  (meet o i && !(r.rfn == 2 && r.win == r.wout)) || (r.men && (meet m i || meet m o)) ||
    (r.sten && (meet t i || meet t o || (r.men && meet t m)))

/-- VROW at issue (R138, R140). -/
def execVrow (k : CoreId) (f : IBits) (s : State) : Out :=
  let sr := bits f 53 49
  .next (s.issueVec k.val 0x55 f ((List.range 5).map (fun i => sr + i)) fun s c =>
    let args := (List.range 5).map (fun i => if sr + i < 32 then s.sreg k.val c.val (sr + i) else 0)
    let r := rowShape f args
    let rs := r.operands.flatMap (fun o => rowRanges (opBase o.1) (opStride o.1) o.2 r.rcnt)
    Issued.checked s
      [(bits f 46 17 ≠ 0 || decide (bits f 3 0 ≠ 0) || flagUnused f || r.operands.any (fun o => opReserved o.1) ||
          decide (bits (args.getD 4 0) 63 32 ≠ 0), 0x0502),
       (r.rfn = 3, 0x050C), (sr + 4 > 31, 0x050D),
       ([r.win, r.wout].any (fun w => decide (opBase w % 4 ≠ 0) || decide (opStride w % 4 ≠ 0)), 0x0509),
       (!rowsFit rs, 0x0101), (!s.ownsRows k.val c.val rs, 0x0102), (r.clash, 0x050E), (s.flagBad k.val c.val f, 0x0901)]
      fun _ => .done (s.queueVec k.val c .vrow f args))

/-- NLOAD at issue (R135, R140): the image's words are checked when the engine reads them. -/
def execNload (k : CoreId) (f : IBits) (s : State) : Out :=
  .next (s.issueVec k.val 0x56 f [bits f 52 48] fun s c =>
    let w := s.sreg k.val c.val (bits f 52 48)
    let off := bits w 21 0
    Issued.checked s
      [(bits f 47 0 ≠ 0 || decide (bits w 63 22 ≠ 0), 0x0502), (!s.bitOf (R.VE_CTX k.val c.val) (bits f 55 53), 0x050B),
       (off % 8 ≠ 0, 0x0509), (off + 8 > padSize, 0x0101), (!s.owns k.val c.val off 8, 0x0102)] fun _ =>
      .done (s.queueVec k.val c .nload f [w]))

/-- The image of a slot; empty for an empty slot. -/
def CoreState.slotImg (x : CoreState) (j : Nat) : List Byte := Sparse.get (fun _ => []) x.slots j

/-- Elements of block `b` of `ecnt`. -/
def blockCount (ecnt b : Nat) : Nat := min 64 (ecnt - 64 * b)

/-- Byte ranges of one stream of an NRUN (R127). -/
def streamRanges (f : Fmt) (w : Word64) (ecnt : Nat) : List (Nat × Nat) :=
  (List.range ((ecnt + 63) / 64)).map (fun b => (opBase w + b * opStride w, blockBytes f (blockCount ecnt b)))

/-- The end of a stream's byte range (R129). -/
def streamEnd (f : Fmt) (w : Word64) (ecnt : Nat) : Nat :=
  let b := (ecnt + 63) / 64 - 1
  opBase w + b * opStride w + blockBytes f (blockCount ecnt b)

/-- The streams of a program with their words: inputs, then outputs. -/
def newtStreams (h : Nat) (ws : List Word64) : List (Fmt × Word64) := ((newtFmts h).map fmtOf).zip ws

/-- Forbidden overlap of an NRUN's streams (R129). -/
def streamsClash (h ecnt : Nat) (ws : List Word64) : Bool :=
  let ss := newtStreams h ws
  let n := newtNin h
  (List.range (newtNout h)).any (fun o =>
    let x := ss.getD (n + o) (.fp32, 0)
    (List.range ss.length).any (fun i =>
      let y := ss.getD i (.fp32, 0)
      i != n + o && extentsMeet (opBase x.2) (streamEnd x.1 x.2 ecnt) (opBase y.2) (streamEnd y.1 y.2 ecnt) &&
        !(decide (i < n) && x.2 == y.2 && blockBytes x.1 64 == blockBytes y.1 64)))

/-- The checks of an NRUN that its slot's program decides (R140 checks 9 to 13). -/
def State.nrunChecks (s : State) (k c : Nat) (img : List Byte) (ecnt : Nat) (ws : List Word64) : List (Bool × Status) :=
  let ss := newtStreams (newtHdr img) ws
  let rs := ss.flatMap (fun x => streamRanges x.1 x.2 ecnt)
  [(img.isEmpty, 0x0507), (ecnt = 0 || decide (ecnt > 16777216), 0x050A),
   (ss.any (fun x => decide (opBase x.2 % vAlign x.1 ≠ 0) || decide (opStride x.2 % vAlign x.1 ≠ 0)), 0x0509),
   (!rowsFit rs, 0x0101), (!s.ownsRows k c rs, 0x0102), (streamsClash (newtHdr img) ecnt ws, 0x050E)]

/-- The number of streams of an image. -/
def newtN (img : List Byte) : Nat := newtNin (newtHdr img) + newtNout (newtHdr img)

/-- Every check of an NRUN, in the order of R140; `ws` are the words of the program's streams. -/
def State.nrunAll (s : State) (k c : Nat) (f : IBits) (img : List Byte) (ecnt : Nat) (ws : List Word64) : List (Bool × Status) :=
  [(bits f 37 17 ≠ 0 || decide (bits f 3 0 ≠ 0) || flagUnused f || ws.any opReserved, 0x0502),
    (bits f 52 48 + newtN img > 32 || decide (bits f 47 43 + 4 > 32), 0x050D),
    (!s.bitOf (R.VE_CTX k c) (bits f 55 53), 0x050B)] ++ s.nrunChecks k c img ecnt ws ++ [(s.flagBad k c f, 0x0901)]

/-- Whether an NLOAD of a slot is still queued: which program an NRUN of the slot will run is not known yet. -/
def CoreState.loads (x : CoreState) (j : Nat) : Bool := x.vq.any (fun e => e.kind = .nload && decide (bits e.f 55 53 = j))

/-- NRUN at issue (R136, R140). Behind a queued NLOAD of its slot it issues with the words of as many streams as a program may
have, and the checks that the program decides, with those R140 orders after them, are made when it starts: DESIGN CHOICE, log
entry 93. -/
def execNrun (k : CoreId) (f : IBits) (s : State) : Out :=
  let x := s.core k.val
  let img := x.slotImg (bits f 55 53)
  let late := x.loads (bits f 55 53)
  let n := if late then 6 else newtN img
  let sr := bits f 52 48
  let kr := bits f 47 43
  .next (s.issueVec k.val 0x57 f ((List.range n).map (fun i => sr + i) ++ (List.range 4).map (fun i => kr + i) ++ [bits f 42 38])
    fun s c =>
    let get (i : Nat) : Word64 := if i < 32 then s.sreg k.val c.val i else 0
    let ws := (List.range n).map (fun i => get (sr + i))
    let ks := (List.range 4).map (fun i => get (kr + i))
    let ec := s.sreg k.val c.val (bits f 42 38)
    let checks := s.nrunAll k.val c.val f img ec.toNat (if late then [] else ws)
    Issued.checked s (if late then checks.take 1 else checks) fun _ =>
      .done (s.queueVec k.val c .nrun f ([ec] ++ ks ++ ws) late))

/-- VSEED at issue (R139). -/
def execVseed (k : CoreId) (f : IBits) (s : State) : Out :=
  .next (s.issueVec k.val 0x58 f [bits f 55 51] fun s c =>
    Issued.checked s [(bits f 50 0 ≠ 0, 0x0502)] fun _ => .done (s.queueVec k.val c .vseed f [s.sreg k.val c.val (bits f 55 51)]))

/-! ## Running -/

/-- VLD (R132). -/
def State.runVld (s : State) (k : Nat) (e : VecEntry) : State :=
  let fm := fmtOf (bits e.f 50 47)
  let off := bits (e.args.getD 0 0) 21 0
  let (s1, d, st) := s.rowRead k e.ctx.val off (blockBytes fm 64)
  if st ≠ 0 then s1.vecFault k e st off
  else s1.modCore k (fun x => x.vputAll (isPair fm) (bits e.f 55 51) (unpack fm 64 (clean d)))

/-- VST (R132). -/
def State.runVst (s : State) (k : Nat) (e : VecEntry) : State :=
  let fm := fmtOf (bits e.f 50 47)
  let off := bits (e.args.getD 0 0) 21 0
  let x := s.core k
  let r := bits e.f 55 51
  if x.vregBad (vregsOf (isPair fm) r) then s.vecFault k e 0x050F off
  else
    let (s1, st) := s.rowWrite k e.ctx.val off (carried (packBlock fm (lanes.map (x.vget fm r))))
    if st ≠ 0 then s1.vecFault k e st off else s1

/-- VOP (R133). -/
def State.runVop (s : State) (k : Nat) (e : VecEntry) : State :=
  let fn := bits e.f 55 50
  let fm := fmtOf (bits e.f 49 46)
  let p := isPair fm
  let x := s.core k
  let ra := bits e.f 40 36
  let rb := bits e.f 35 31
  let rc := bits e.f 30 26
  let kb := bit e.f 25
  let cp := p && decide (fn ≠ 0x0E)
  let reads := (if vUsesA fn then vregsOf p ra else []) ++ (if vUsesB fn && !kb then vregsOf p rb else []) ++
    (if vUsesC fn then vregsOf cp rc else [])
  if fn = 0 then s
  else if x.vregBad reads then s.vecFault k e 0x050F 0
  else
    let bs := bits (e.args.getD 0 0) (fm.bitsOf - 1) 0
    let val (l : Nat) : Nat :=
      vecOp fn fm (x.vget fm ra l) (if kb then bs else x.vget fm rb l) (if cp then x.vget fm rc l else x.lane rc l)
    s.setCore k (x.vputAll (p && !vCompare fn) (bits e.f 45 41) (lanes.map val))

/-- Convert one element, drawing for RSR (R53, R134, R143). -/
def convDraw (sf df : Fmt) (rmode : Nat) (sat : Bool) (x : BitVec 32) (v : Nat) : BitVec 32 × Conv :=
  let d := if rmode = 5 then rngDraw x else (x, 0)
  (d.1, convert sf df ((RMode.ofCode rmode d.2).getD .rne) sat v)

/-- VCVT (R134). -/
def State.runVcvt (s : State) (k : Nat) (e : VecEntry) : State :=
  let sf := fmtOf (bits e.f 55 52)
  let df := fmtOf (bits e.f 51 48)
  let x := s.core k
  let r := bits e.f 42 38
  if x.vregBad (vregsOf (isPair sf) r) then s.vecFault k e 0x050F 0
  else
    let t := x.ctx e.ctx.val
    let cs := lanes.map (fun l => convDraw sf df (bits e.f 37 35) (bit e.f 34) (t.rngAt l) (x.vget sf r l))
    let t' := (lanes.zip cs).foldl (fun t p => t.setRng p.1 p.2.1) t
    let x' := (x.vputAll (isPair df) (bits e.f 47 43) (cs.map (fun p => p.2.val))).setCtx e.ctx.val t'
    let new := cs.foldl (fun a p => a ||| convFlags p.2) 0
    let f : Fresh := ⟨e.ctx, vregsOf (isPair df) (bits e.f 47 43), new, s.fld (R.VE_XFLAGS k e.ctx.val) 6 0,
      if isPair sf || isPair df then 6 else 4⟩
    (s.setCore k { x' with fresh := x'.fresh ++ [f] }).xflags k e.ctx.val new

/-- One level of the fixed tree: pairs of neighbours, an absent side passing the other (R145, R149). -/
def treeLevel {α : Type} (g : α → α → α) : List (Option α) → List (Option α)
  | a :: b :: r =>
    (match a, b with
      | some x, some y => some (g x y)
      | some x, none => some x
      | none, y => y) :: treeLevel g r
  | r => r

/-- The six levels over 64 values. -/
def tree64 {α : Type} (g : α → α → α) (l : List (Option α)) : Option α :=
  ((List.range 6).foldl (fun l _ => treeLevel g l) l).getD 0 none

/-- VRED's value (R145). -/
def vredValue (rop : Nat) (fm : Fmt) (vs : List Nat) (containers : List Nat) (flags : Nat) : Word64 :=
  let wide (v : Nat) : Word64 := if fm.isInt then sext64 fm.bitsOf v else BitVec.ofNat 64 v
  match rop with
  | 0 => wide (vs.tail.foldl (fun a b => vecOp 0x06 fm a b 0) (vs.getD 0 0))
  | 1 => wide (vs.tail.foldl (fun a b => vecOp 0x07 fm a b 0) (vs.getD 0 0))
  | 2 =>
    if fm.isInt then BitVec.ofInt 64 (vs.foldl (fun a b => a + signed fm.bitsOf b) 0)
    else BitVec.ofNat 64 ((tree64 (fun a b => vecOp 0x02 fm a b 0) (vs.map some)).getD 0)
  | 3 => BitVec.ofNat 64 (containers.filter (fun c => c ≠ 0)).length
  | _ =>
    BitVec.ofNat 64 ((vs.any (fun v => (fm.value v).isInf)).toNat * 512 + (vs.any (fun v => (fm.value v).isNan)).toNat * 256 +
      flags % 128)

/-- What a VRED FLAGS sees of VE_XFLAGS_k, and the VCVTs whose indications it does not see (R145): those whose result may
not be usable yet. -/
def State.sampleFlags (s : State) (k : Nat) (c : CtxId) : Nat × List Fresh :=
  let mine := (s.core k).fresh.filter (fun f => f.ctx = c)
  let cur := s.fld (R.VE_XFLAGS k c.val) 6 0
  let unseen := (((List.range mine.length).zip mine).filter (fun x => !Config.flagsSeen s.free x.1)).map (fun x => x.2)
  let base := match mine with | f :: _ => f.was | [] => cur
  let seen := (mine.filter (fun f => !unseen.contains f)).foldl (fun a f => a ||| f.bits) base
  (cur &&& seen, unseen)

/-- VCVTs over a register that held `was` before the first of them. -/
def rebase (was : Nat) : List Fresh → List Fresh
  | [] => []
  | f :: fs => { f with was := was } :: rebase (was ||| f.bits) fs

/-- After a VRED FLAGS (R145): CLR has cleared what it saw, and what it did not see is still to come. -/
def State.flagsTaken (s : State) (k : Nat) (c : CtxId) (seen : Nat) (unseen : List Fresh) (clr : Bool) : State :=
  let s := if clr then s.setFld (R.VE_XFLAGS k c.val) 6 0 (unseen.foldl (fun a f => a ||| f.bits) 0) else s
  s.modCore k (fun x => { x with
    fresh := x.fresh.filter (fun f => f.ctx ≠ c) ++ rebase (if clr then 0 else seen) unseen })

/-- VRED (R137, R145): SD takes the value and is pending no longer. -/
def State.runVred (s : State) (k : Nat) (e : VecEntry) : State :=
  let rop := bits e.f 55 53
  let fm := fmtOf (bits e.f 52 49)
  let x := s.core k
  let r := bits e.f 48 44
  let sd := bits e.f 43 39
  let s0 := s.modCtx k e.ctx.val (fun t => { t with busy := t.busy.erase sd })
  if x.vregBad (vregsOf (isPair fm) r) then s0.vecFault k e 0x050F 0
  else
    let y := s.sampleFlags k e.ctx
    let s1 := s0.setSreg k e.ctx.val sd (vredValue rop fm (lanes.map (x.vget fm r)) (lanes.map (x.lane r)) y.1)
    if rop = 4 then s1.flagsTaken k e.ctx y.1 y.2 (bit e.f 38) else s1

/-- NLOAD (R135, R125). -/
def State.runNload (s : State) (k : Nat) (e : VecEntry) : State :=
  let off := bits (e.args.getD 0 0) 21 0
  let (s1, d, st) := s.rowRead k e.ctx.val off 8
  if st ≠ 0 then s1.vecFault k e st off
  else
    let len := 8 + 4 * newtNops (newtHdr (clean d))
    if off + len > padSize then s1.vecFault k e 0x0101 off
    else
      let (s2, b, st) := s1.rowRead k e.ctx.val off len
      if st ≠ 0 then s2.vecFault k e st off
      else match newtCheck (clean b) with
        | some (st, u) => s2.vecFault k e st off u
        | none => s2.modCore k (fun x => { x with slots := Sparse.set (fun _ => []) x.slots (bits e.f 55 53) (clean b) })

/-- One lane of a block as its micro-operations run: temporaries, outputs, generator, indications (R126). -/
structure LaneRun where
  temps : List Nat
  outs  : List Nat
  rng   : BitVec 32
  flags : Nat

/-- A source operand of a micro-operation (R124). -/
def LaneRun.src (r : LaneRun) (ins ks : List Nat) (c : Nat) : Nat :=
  if c < 0x10 then r.temps.getD c 0 else if c < 0x14 then ins.getD (c - 0x10) 0 else ks.getD (c - 0x14) 0

/-- Run one micro-operation in a lane (R124 to R126). -/
def laneUop (ins ks : List Nat) (r : LaneRun) (u : Nat) : LaneRun :=
  let fn := uopFn u
  let fm := fmtOf (uopType u)
  if fn = 0 then r
  else
    let put (r : LaneRun) (v : Nat) : LaneRun :=
      if uopDst u < 0x10 then { r with temps := r.temps.set (uopDst u) v } else { r with outs := r.outs.set (uopDst u - 0x18) v }
    if fn = 0x0F then
      let (x, cv) := convDraw fm (fmtOf (uopTarget u)) (natBits u 6 4) (natBits u 7 7 == 1) r.rng
        (r.src ins ks (uopA u) % 2 ^ fm.bitsOf)
      put { r with rng := x, flags := r.flags ||| convFlags cv } cv.val
    else put r (vecOp fn fm (r.src ins ks (uopA u)) (r.src ins ks (uopB u)) (r.src ins ks (uopC u)))

/-- Read the input blocks of block `b` (R127, R142). -/
def State.readBlocks (s : State) (k c b ecnt : Nat) : List (Fmt × Word64) → State × List (List Nat) × Status × Nat
  | [] => (s, [], 0, 0)
  | x :: xs =>
    let n := blockCount ecnt b
    let off := opBase x.2 + b * opStride x.2
    let (s1, d, st) := s.rowRead k c off (blockBytes x.1 n)
    if st ≠ 0 then (s1, [], st, off)
    else
      let r := s1.readBlocks k c b ecnt xs
      (r.1, unpack x.1 n (clean d) :: r.2.1, r.2.2)

/-- Write the output blocks of block `b`. -/
def State.writeBlocks (s : State) (k c b : Nat) : List ((Fmt × Word64) × List Nat) → State × Status × Nat
  | [] => (s, 0, 0)
  | x :: xs =>
    let off := opBase x.1.2 + b * opStride x.1.2
    let (s1, st) := s.rowWrite k c off (carried (packBlock x.1.1 x.2))
    if st ≠ 0 then (s1, st, off) else s1.writeBlocks k c b xs

/-- Run the program over the inputs of block `b` and write its outputs (R126, R128). -/
def State.newtBlock (s : State) (k : Nat) (e : VecEntry) (img : List Byte) (ecnt b : Nat) (ins : List (List Nat)) :
    State × Status × Nat :=
  let h := newtHdr img
  let ks := (List.range 4).map (fun i => bits (e.args.getD (1 + i) 0) 31 0)
  let us := (List.range (newtNops h)).map (newtUop img)
  let t := s.ctx k e.ctx.val
  let ls := (List.range (blockCount ecnt b)).map (fun l =>
    us.foldl (laneUop (ins.map (fun i => i.getD l 0)) ks) ⟨List.replicate 16 0, [0, 0], t.rngAt l, 0⟩)
  let outs := ((newtStreams h (e.args.drop 5)).drop (newtNin h)).zip
    ((List.range (newtNout h)).map (fun o => ls.map (fun r => r.outs.getD o 0)))
  let fl := ls.foldl (fun a r => a ||| r.flags) 0 |||
    outs.foldl (fun a o => o.2.foldl (fun a v => a ||| outFlags o.1.1 v) a) 0
  let s := s.modCtx k e.ctx.val (fun t =>
    ((List.range ls.length).zip ls).foldl (fun t p => t.setRng p.1 p.2.rng) t)
  let (s, st, off) := s.writeBlocks k e.ctx.val b outs
  if st ≠ 0 then (s, st, off) else (s.xflags k e.ctx.val fl, 0, 0)

/-- How many blocks after block b are read before block b is written (R128): block b + a is read from t0 + (b + a) × T, no
later than t0 + 7 + b × T + W. -/
def newtAhead (img : List Byte) : Nat :=
  let h := newtHdr img
  let w := sumOf ((List.range (newtNops h)).map (fun i => vWeight (uopFn (newtUop img i))))
  let bytes (l : List Nat) : Nat := sumOf (l.map (fun c => blockBytes (fmtOf c) 64))
  let fs := newtFmts h
  let t := max w (max ((bytes (fs.take (newtNin h)) + 1023) / 1024) ((bytes (fs.drop (newtNin h)) + 511) / 512))
  (7 + w) / max t 1

/-- A program's blocks in the order of R128. Each turn reads block `b`, then writes the block `ahead` before it, whose inputs
head `held`. A block whose input cannot be read receives no write, and the blocks before it complete (R142); `bad` is that
read's status and offset. -/
def State.newtBlocks (s : State) (k : Nat) (e : VecEntry) (img : List Byte) (ecnt ahead b : Nat) (held : List (List (List Nat)))
    (bad : Option (Status × Nat)) : Nat → State × Status × Nat
  | 0 => match bad with | some x => (s, x.1, x.2) | none => (s, 0, 0)
  | n + 1 =>
    let h := newtHdr img
    let more := decide (b < (ecnt + 63) / 64) && bad.isNone
    let r := if more then s.readBlocks k e.ctx.val b ecnt ((newtStreams h (e.args.drop 5)).take (newtNin h)) else (s, [], 0, 0)
    let bad := if r.2.2.1 ≠ 0 then some r.2.2 else bad
    let held := if more && bad.isNone then held ++ [r.2.1] else held
    match held with
    | ins :: rest =>
      if b < ahead then r.1.newtBlocks k e img ecnt ahead (b + 1) held bad n
      else
        let w := r.1.newtBlock k e img ecnt (b - ahead) ins
        if w.2.1 ≠ 0 then (match bad with | some x => (w.1, x.1, x.2) | none => w)
        else w.1.newtBlocks k e img ecnt ahead (b + 1) rest bad n
    | [] => r.1.newtBlocks k e img ecnt ahead (b + 1) [] bad n

/-- NRUN (R126 to R129, R136). -/
def State.runNrun (s : State) (k : Nat) (e : VecEntry) : State :=
  let img := (s.core k).slotImg (bits e.f 55 53)
  let ec := (e.args.getD 0 0).toNat
  let checks := if e.late then s.nrunAll k e.ctx.val e.f img ec ((e.args.drop 5).take (newtN img)) else [(img.isEmpty, 0x0507)]
  match firstOf checks with
  | some st => s.vecFault k e st 0
  | none =>
    let a := newtAhead img
    let (s1, st, off) := s.newtBlocks k e img ec a 0 [] none ((ec + 63) / 64 + a)
    if st ≠ 0 then s1.vecFault k e st off else s1.fenSet k (bit e.f 16) (bits e.f 15 4)

/-- The values of one row that are not masked, by position (R147). -/
def rowUnmasked (r : RowShape) (xs : List Nat) (mask : List Byte) : List (Option Nat) :=
  (List.range r.rlen).map (fun i =>
    if r.men && !(mask.getD (i / 8) 0).getLsbD (i % 8) then none else some (xs.getD i 0))

/-- An FP32 addition of the row operations. -/
def addF32 (a b : Nat) : Nat := toF32 (Num.add false (f32 a) (f32 b))

/-- The fixed-order sum (R149). -/
def rowSum (xs : List (Option Nat)) : Option Nat :=
  let part (l : Nat) : Option Nat := (List.range (xs.length / 64 + 1)).foldl (fun a j =>
    match a, xs.getD (64 * j + l) none with
    | some x, some y => some (addF32 x y)
    | some x, none => some x
    | none, y => y) none
  tree64 addF32 (lanes.map part)

/-- log₂ e rounded to FP32: DESIGN CHOICE, log entry 94. -/
def log2e : Nat := 0x3FB8AA3B

/-- exp (x − m) as R149 forms it, each step before EXP2 rounded to FP32: DESIGN CHOICE, log entry 94. -/
def expDiff (x m : Nat) : Nat :=
  vExp2 .fp32 (toF32 (Num.mul (f32 (toF32 (Num.add false (f32 x) (f32 m).negate))) (f32 log2e)))

/-- What a row yields: its output elements and its status byte. -/
structure RowResult where
  outs : List Nat
  sts  : Nat
  deriving DecidableEq, Repr

/-- One row of VROW: the first case of R148 that applies. -/
def rowResult (rfn rlen : Nat) (ys : List (Option Nat)) : RowResult :=
  let vs := ys.filterMap id
  let inf := 0x7F80_0000
  let ninf := 0xFF80_0000
  let qnan := 0x7FC0_0000
  let all (v : Nat) : List Nat := if rfn = 2 then List.replicate rlen v else [v]
  let kInf := (vs.filter (fun v => v == inf)).length
  let kNeg := (vs.filter (fun v => v == ninf)).length
  if vs = [] then ⟨all 0, 1⟩
  else if vs.any (fun v => (f32 v).isNan) then ⟨all qnan, 4⟩
  else if kInf ≥ 1 ∧ kNeg ≥ 1 ∧ rfn = 1 then ⟨[qnan], 4⟩
  else if kInf ≥ 1 then
    let inv := vDivOne kInf
    ⟨if rfn = 2 then ys.map (fun y => if y = some inf then inv else 0) else [inf], 2⟩
  else if kNeg = vs.length then ⟨if rfn = 2 then all 0 else [ninf], if rfn = 2 then 8 else 2⟩
  else
    let m := vs.tail.foldl (fun a b => maxF fp32P a b) (vs.getD 0 0)
    match rfn with
    | 0 => ⟨[m], 0⟩
    | 1 =>
      let t := if kNeg ≥ 1 then ninf else (rowSum ys).getD 0
      ⟨[t], if (f32 t).isInf then 2 else 0⟩
    | _ =>
      let es := ys.map (fun y => y.map (fun x => expDiff x m))
      let inv := vRcp .fp32 ((rowSum es).getD 0)
      ⟨es.map (fun e => match e with | some e => toF32 (Num.mul (f32 e) (f32 inv)) | none => 0), 0⟩
where
  /-- RNE(1/k). -/
  vDivOne (k : Nat) : Nat := (fp32P.conv .rne false (.fin false (2 * (2 ^ 80 / k) + (if 2 ^ 80 % k = 0 then 0 else 1)) (-81))).val

/-- Rows of a VROW from `j` (R147 to R150, R142). -/
def State.rowLoop (s : State) (k : Nat) (e : VecEntry) (r : RowShape) (j : Nat) : Nat → State × Status × Nat
  | 0 => (s, 0, 0)
  | n + 1 =>
    let at' (w : Word64) : Nat := opBase w + j * opStride w
    let (s1, d, st) := s.rowRead k e.ctx.val (at' r.win) (4 * r.rlen)
    if st ≠ 0 then (s1, st, at' r.win)
    else
      let (s2, md, st) := if r.men then s1.rowRead k e.ctx.val (at' r.wmsk) r.mskLen else (s1, [], 0)
      if st ≠ 0 then (s2, st, at' r.wmsk)
      else
        let y := rowResult r.rfn r.rlen (rowUnmasked r (unpack .fp32 r.rlen (clean d)) (clean md))
        let (s3, st) := s2.rowWrite k e.ctx.val (at' r.wout) (carried (packBlock .fp32 y.outs))
        if st ≠ 0 then (s3, st, at' r.wout)
        else
          let (s4, st) := if r.sten then s3.rowWrite k e.ctx.val (at' r.wsts) (carried (leBytes 1 y.sts)) else (s3, 0)
          if st ≠ 0 then (s4, st, at' r.wsts)
          else
            let b (i : Nat) : Nat := natBits y.sts i i
            let fl := b 0 * 32 + b 3 * 64 + y.outs.foldl (fun a v => a ||| outFlags .fp32 v) (b 1 * 16 + b 2 * 8)
            (s4.xflags k e.ctx.val fl).rowLoop k e r (j + 1) n

/-- VROW (R138, R147 to R150). -/
def State.runVrow (s : State) (k : Nat) (e : VecEntry) : State :=
  let r := rowShape e.f e.args
  let (s1, st, off) := s.rowLoop k e r 0 r.rcnt
  if st ≠ 0 then s1.vecFault k e st off else s1.fenSet k (bit e.f 16) (bits e.f 15 4)

/-- VSEED (R139, R143). -/
def State.runVseed (s : State) (k : Nat) (e : VecEntry) : State :=
  let seed := bits (e.args.getD 0 0) 31 0
  s.modCtx k e.ctx.val (fun t => lanes.foldl (fun t l => t.setRng l (rngSeed seed l)) t)

/-- The vector registers a queued instruction reads. -/
def vecRegs (e : VecEntry) : List Nat :=
  match e.kind with
  | .vst => vregsOf (isPair (fmtOf (bits e.f 50 47))) (bits e.f 55 51)
  | .vcvt => vregsOf (isPair (fmtOf (bits e.f 55 52))) (bits e.f 42 38)
  | .vred => vregsOf (isPair (fmtOf (bits e.f 52 49))) (bits e.f 48 44)
  | .vop =>
    let fn := bits e.f 55 50
    let p := isPair (fmtOf (bits e.f 49 46))
    (if vUsesA fn then vregsOf p (bits e.f 40 36) else []) ++
      (if vUsesB fn && !bit e.f 25 then vregsOf p (bits e.f 35 31) else []) ++
      (if vUsesC fn then vregsOf (p && decide (fn ≠ 0x0E)) (bits e.f 30 26) else [])
  | _ => []

/-- The vector registers a queued instruction writes. -/
def vecDst (e : VecEntry) : List Nat :=
  match e.kind with
  | .vld => vregsOf (isPair (fmtOf (bits e.f 50 47))) (bits e.f 55 51)
  | .vcvt => vregsOf (isPair (fmtOf (bits e.f 51 48))) (bits e.f 47 43)
  | .vop =>
    let fn := bits e.f 55 50
    if fn = 0 then [] else vregsOf (isPair (fmtOf (bits e.f 49 46)) && !vCompare fn) (bits e.f 45 41)
  | _ => []

/-- Issue CCLK that an instruction occupies (R141); one for those R141 does not list. -/
def vecCclk (e : VecEntry) : Nat :=
  let two (p : Bool) : Nat := if p then 2 else 1
  match e.kind with
  | .vld | .vst => two (isPair (fmtOf (bits e.f 50 47)))
  | .vcvt => two (isPair (fmtOf (bits e.f 55 52)) || isPair (fmtOf (bits e.f 51 48)))
  | .vred => if bits e.f 52 49 = 3 then 4 else 1
  | .vop => if isPair (fmtOf (bits e.f 49 46)) then (if bits e.f 55 50 = 0x14 then 16 else 4) else vWeight (bits e.f 55 50)
  | _ => 1

/-- VCVTs of which `n` more CCLK have passed; a usable result's indications are in VE_XFLAGS_k (R145). -/
def freshAfter (n : Nat) (fs : List Fresh) : List Fresh :=
  (fs.map (fun f => { f with left := f.left - n })).filter (fun f => decide (f.left ≠ 0))

/-- VCVTs still not usable when an instruction starts (R141): it waits for those whose result it reads or writes again, and
VROW, NRUN and NLOAD wait for all. -/
def freshAt (e : VecEntry) (fs : List Fresh) : List Fresh :=
  match e.kind with
  | .vrow | .nrun | .nload => []
  | _ =>
    let hit := fs.filter (fun f => f.regs.any (fun r => (vecRegs e ++ vecDst e).contains r))
    freshAfter (hit.foldl (fun a f => max a f.left) 0) fs

/-- What the instruction at the front of the vector queue does. -/
def State.vecEffect (s : State) (k : Nat) (e : VecEntry) : State :=
  match e.kind with
  | .vld => s.runVld k e
  | .vst => s.runVst k e
  | .vop => s.runVop k e
  | .vcvt => s.runVcvt k e
  | .vred => s.runVred k e
  | .vrow => s.runVrow k e
  | .nload => s.runNload k e
  | .nrun => s.runNrun k e
  | .vseed => s.runVseed k e

/-- Run the instruction at the front of the vector queue (R141). -/
def State.runVec (s : State) (k : Nat) (e : VecEntry) : State :=
  let s := ((s.modCore k (fun x => { x with
      vq := x.vq.filter (fun a => decide (a.seq ≠ e.seq))
      fresh := freshAt e x.fresh })).wrapInc
    (R.VE_ACTIVE_CNT k) 63 0 (Config.veCclk s.free)).takeFree
  (s.vecEffect k e).modCore k (fun x => { x with fresh := freshAfter (vecCclk e) x.fresh })

/-- Vector registers' corrections reach the bucket of the core's position (R142, R387). -/
def State.vecCorrected (s : State) (k n : Nat) : State :=
  match s.phys k with
  | some p => (List.range n).foldl (fun s _ => s.coreEvent p) s
  | none => s

/-- VECTOR_START (R141); `corr` names containers with an error that the read corrects (R142), each counted in the position's
bucket where the instruction reads it (R387). -/
def execVectorStart (k : CoreId) (corr : List (BitVec 11)) (s : State) : Out :=
  .next (match (if s.shut k.val then [] else (s.core k.val).vq) with
    | e :: _ => (s.vecCorrected k.val (corr.filter (fun c => (vecRegs e).contains (c.toNat / 64))).length).runVec k.val e
    | [] => s)

/-- The words a queued vector instruction reads. -/
def State.vecWords (s : State) (k : Nat) (e : VecEntry) : List Nat :=
  let off := bits (e.args.getD 0 0) 21 0
  let rs : List (Nat × Nat) := match e.kind with
    | .vld => [(off, blockBytes (fmtOf (bits e.f 50 47)) 64)]
    | .nload => [(off, 8 + 4 * 48)]
    | .vrow =>
      let r := rowShape e.f e.args
      rowRanges (opBase r.win) (opStride r.win) (4 * r.rlen) r.rcnt ++
        (if r.men then rowRanges (opBase r.wmsk) (opStride r.wmsk) r.mskLen r.rcnt else [])
    | .nrun =>
      let h := newtHdr ((s.core k).slotImg (bits e.f 55 53))
      ((newtStreams h (e.args.drop 5)).take (newtNin h)).flatMap (fun x => streamRanges x.1 x.2 (e.args.getD 0 0).toNat)
    | _ => []
  rs.flatMap (fun r => wordsOf r.1 r.2)

/-- VECTOR_READ_FAULT (R142): the instruction at the front reads a word to whose stored bits has happened what the command says, or an
uncorrectable register container. -/
def execVectorReadFault (k : CoreId) (word : BitVec 19) (u : Upset) (cont : Option (BitVec 11)) (s : State) : Out :=
  .next (match (s.core k.val).vq with
    | [] => s
    | v :: _ =>
      match cont with
      | some c =>
        if (vecRegs v).contains (c.toNat / 64) then
          (s.modCore k.val (fun x => { x with vbad := Sparse.set (fun _ => false) x.vbad c.toNat true })).runVec k.val v
        else s
      | none => if (s.vecWords k.val v).contains word.toNat then (s.upsetWord k.val word.toNat u).runVec k.val v else s)

end Sys2Proof.Machine
end

