-- ==== Sys2Proof/Machine/Scratchpad.lean ====
section
/-!
DEFINITION. The scratchpad (chapter 07): bank accesses, at-memory instructions, watches, credits and grants.
-/

namespace Sys2Proof.Machine

/-! ## Banks (R175 to R180) -/

/-- The bank of a window offset (R175). -/
def bankOf (off : Nat) : Nat := off / 64 % 32

/-- Bytes of a counter (R189). -/
def atOpSize : AtOp → Nat
  | .count n _ => n
  | .ccount n _ _ => n
  | .arm n _ _ => n

/-- Bytes that a request touches. -/
def reqBytes (r : BankReq) : Nat :=
  match r.op with
  | .read => r.len
  | .write d => d.length
  | .atMem op => atOpSize op

/-- Whether a request is one that bank `b` can take: within one 64-byte row of the bank (R176). -/
def reqFits (r : BankReq) (b : Nat) : Bool :=
  decide (0 < reqBytes r) && decide (bankOf r.off.toNat = b) && decide (r.off.toNat % 64 + reqBytes r ≤ 64) &&
    decide (r.off.toNat + reqBytes r ≤ padSize)

/-- Place of a port in the order of R178. -/
def portRank : Port → Nat
  | .seq => 0 | .ma => 1 | .ve => 2 | .dma => 3 | .inb => 4

/-- Reads before writes before at-memory operations (R178). -/
def kindRank : BankOp → Nat
  | .read => 0 | .write _ => 1 | .atMem _ => 2

/-- Place of a pending request in the grant order of R178: arrival, then kind, then port. -/
def pendRank (r : PendReq) : Nat := r.order * 15 + kindRank r.req.op * 5 + portRank r.req.port

/-- Bank reads and bank writes that a port makes in one CCLK; the sequencer makes one access of either kind (R176). -/
def portReads : Port → Nat
  | .seq => 1 | .ma => 16 | .ve => 16 | .dma => 8 | .inb => 8
def portWrites : Port → Nat
  | .seq => 1 | _ => 8

/-- Whether a port has an access of this kind left in the CCLK (R176). -/
def BankState.portRoom (x : BankState) (p : Port) (writes : Bool) : Bool :=
  let mine := x.used.filter (fun u => u.2.1 = p)
  if p = .seq then mine.isEmpty
  else decide ((mine.filter (fun u => u.2.2 = writes)).length < (if writes then portWrites p else portReads p))

/-- Whether a request writes its row. -/
def reqWrites (r : BankReq) : Bool := match r.op with | .read => false | _ => true

/-- Whether an access takes its bank for two CCLK (R176): an at-memory operation, or a write that covers part of a word. -/
def reqLong (r : BankReq) : Bool :=
  match r.op with
  | .read => false
  | .write d => decide (r.off.toNat % 8 ≠ 0) || decide (d.length % 8 ≠ 0)
  | .atMem _ => true

/-- The pending request of bank `b` that is granted next (R176, R178). -/
def BankState.next (x : BankState) (b : Nat) : Option PendReq :=
  (x.pend.filter (fun r => decide (bankOf r.req.off.toNat = b) && x.portRoom r.req.port (reqWrites r.req))).foldl
    (fun (m : Option PendReq) r => match m with
      | none => some r
      | some x => if pendRank r < pendRank x then some r else some x) none

/-- Requests arrive at bank `b` of a core in one CCLK; a port holds at most one pending request there (R178). -/
def BankState.arrive (x : BankState) (b : Nat) (reqs : List BankReq) : BankState :=
  let order := (x.pend.foldl (fun m r => max m r.order) 0) + 1
  reqs.foldl (fun x r =>
    if reqFits r b = false ∨ x.pend.any (fun q => q.req.port = r.port && bankOf q.req.off.toNat == b) then x
    else { x with pend := x.pend ++ [⟨r, order⟩] }) x

/-- The accesses granted so far belong to CCLK `t`; a later CCLK begins with none, and without the holds that have ended. -/
def BankState.enter (x : BankState) (t : Nat) : BankState :=
  if x.cclk = t then x else { x with cclk := t, used := [], held := x.held.filter (fun h => decide (t ≤ h.2)) }

/-- Bank `b` has performed its access of this CCLK, or is held by the second CCLK of one (R176). -/
def BankState.taken (x : BankState) (b : Nat) : Bool := x.used.any (fun u => u.1 = b) || x.held.any (fun h => h.1 = b)

/-- A request is granted: it leaves, and its bank and port are in use (R176). -/
def BankState.grant (x : BankState) (b : Nat) (r : PendReq) : BankState :=
  { x with pend := x.pend.erase r, used := x.used ++ [(b, r.req.port, (reqWrites r.req))],
           held := if reqLong r.req then x.held ++ [(b, x.cclk + 1)] else x.held }

/-- What an access gave stands at its port. -/
def State.bankOut (s : State) (k : Nat) (r : BankReq) (d : List TByte) (st : Status) : State :=
  s.modCore k (fun x => { x with bank := { x.bank with out := some ⟨r, d, st⟩ } })

/-- Arm a watch of context `c`, or set its flag at once when the counter has reached the threshold (R192): the arm result
and a status. -/
def State.armWatch (s : State) (k c off n : Nat) (thr : Int) (fl : Nat) : State × Word64 × Status :=
  let (s, d, st) := s.padRead k off n
  if st ≠ 0 then (s, 0, st)
  else if thr ≤ signed (8 * n) (leNat (clean d)) then (s.setFlag k fl, 1, 0)
  else (s.modCtx k c (fun t => { t with watches := t.watches ++ [⟨off, n, thr, fl⟩] }), 0, 0)

/-- A threshold read as a counter of `n` bytes is (R192). -/
def watchThr (n : Nat) (v : Word64) : Int := signed (8 * n) (v.toNat % 2 ^ (8 * n))

/-- A granted at-memory operation is performed by the bank (R191, R192); an arm is a context's. -/
def State.grantAt (s : State) (k : Nat) (r : BankReq) (op : AtOp) : State :=
  let a := winBase + k * 0x40_0000 + r.off.toNat
  let x : State × Word64 × Status := match op with
    | .count n inc => s.countAt a n none inc.toNat
    | .ccount n exp inc => s.countAt a n (some exp.toNat) inc.toNat
    | .arm n thr fl => (match r.ctx with
      | some c =>
        if (s.ctx k c.val).watches.length ≥ 16 then (s, 0, 0x070C)
        else s.armWatch k c.val r.off.toNat n (watchThr n thr) fl.val
      | none => (s, 0, 0x0102))
  x.1.bankOut k r (carried (leBytes 8 x.2.1.toNat)) x.2.2

/-- A granted request is performed (R179, R181, R185, R186): a segment that its context does not own refuses it, a word
that refuses a merge is reported to the writer and counted where the inbound engine wrote. -/
def State.grantReq (s : State) (k : Nat) (r : BankReq) : State :=
  let ok := match r.ctx with
    | some c => s.owns k c.val r.off.toNat (reqBytes r)
    | none => true
  if ok = false then s.bankOut k r [] 0x0102
  else match r.op with
    | .read =>
      let (s, d, st) := s.padRead k r.off.toNat r.len
      s.bankOut k r d st
    | .write d =>
      let (s, w) := s.padWrite k r.off.toNat d
      let s := if !w && r.port = .inb then s.satInc (R.SP_DROP_CNT k) 31 0 else s
      s.bankOut k r [] (if w then 0 else 0x0705)
    | .atMem op => s.grantAt k r op

/-- BANK_ACCESS (R176, R178, R179): CCLK `t` of a bank. New requests arrive, and one pending request is granted unless the
bank has performed its access of the CCLK or is held by a longer one. -/
def execBankAccess (k : CoreId) (bank : Fin 32) (reqs : BankCycle) (errs : List (BitVec 19 × Upset)) (s : State) : Out :=
  .next (
    let t := reqs.cclk
    let x := (s.core k.val).bank
    if s.shut k.val ∨ t < x.cclk ∨ (x.enter t).used.any (fun u => u.1 = bank.val) then s else
    let s := (errs.filter (fun e => bankOf (8 * e.1.toNat) = bank.val)).foldl (fun s e => s.upsetWord k.val e.1.toNat e.2) s
    let x := ((s.core k.val).bank.enter t).arrive bank.val reqs.reqs
    match (if x.taken bank.val then none else x.next bank.val) with
    | none => s.modCore k.val (fun y => { y with bank := x })
    | some r => (s.modCore k.val (fun y => { y with bank := x.grant bank.val r })).grantReq k.val r.req)

/-- CORRECTED_WRITEBACK (R185): the bank writes a corrected word back. -/
def execCorrectedWriteback (k : CoreId) (word : BitVec 19) (s : State) : Out :=
  .next (match s.phys k.val with
    | none => s
    | some p =>
      if word.toNat ∈ (s.pos p).pad.wb then
        s.modPos p (fun q => { q with pad := { q.pad with
          wb := q.pad.wb.filter (· ≠ word.toNat)
          fixed := if word.toNat ∈ q.pad.fixed then q.pad.fixed else q.pad.fixed ++ [word.toNat]
          errs := Sparse.set (fun _ => Err.ok) q.pad.errs word.toNat .ok } })
      else s)

/-! ## Segments (R181, R182, R200) -/

/-- The invalidation of segment `g` (R182). -/
def State.invalidateSeg (s : State) (k g : Nat) : State :=
  let s := match s.phys k with
    | some p => s.modPos p (fun q => { q with pad := q.pad.clearSegment g })
    | none => s
  let s := s.endGrants k (fun x => x.used && overlaps x.first x.count (16 * g) 16)
  let s := s.setUnits k (16 * g) 16 (fun _ => .idle)
  (List.range 4).foldl (fun s c => s.modCtx k c (fun t => { t with
    watches := t.watches.filter (fun w => w.off / 0x10000 ≠ g) })) s

/-- Write SP_SEG_s (R182, R200): a write that changes no field has no effect. -/
def State.wrSpSeg (s : State) (k g : Nat) (v : Word64) : State :=
  if s.reg (R.SP_SEG k g) = v then s else (s.invalidateSeg k g).setReg (R.SP_SEG k g) v

/-! ## Offering units (R195, R201) -/

/-- OFFER's change of a unit (R195). -/
def offerUnit (u : UnitSt) : UnitSt := if u = .idle ∨ u = .held then .free else u

/-- WITHDRAW's change of a unit (R195). -/
def withdrawUnit (u : UnitSt) : UnitSt := if u = .free ∨ u = .held then .idle else u

/-- Write SP_RX_CTL_k (R195, R201). -/
def State.wrSpRxCtl (s : State) (k c : Nat) (v : Word64) : State :=
  let op := bits v 31 30
  let first := bits v 9 0
  let n := bits v 19 10 + 1
  let a := R.SP_RX_CTL k c
  if op = 3 then s.regErr a 0x0707
  else if first + n > 768 ∨ s.owns k c (first * 4096) (n * 4096) = false then s.regErr a 0x0710
  else if op = 1 then s.setUnits k first n offerUnit
  else if op = 2 then s.setUnits k first n withdrawUnit
  else s

/-- Units of context `c`'s segments in a state (R202). -/
def State.unitCount (s : State) (k c : Nat) (v : UnitSt) : Nat :=
  ((List.range 768).filter (fun u => decide ((s.core k).unit u = v) && decide (s.segOwner k (u / 16) = some c))).length

/-- What SP_RX_STAT_k reads as (R202). -/
def State.spRxStat (s : State) (k c : Nat) : Word64 :=
  BitVec.ofNat 64 (s.unitCount k c .granted * 2 ^ 20 + s.unitCount k c .held * 2 ^ 10 + s.unitCount k c .free)

/-! ## At-memory instructions (R189 to R192) -/

/-- Bytes that SIZE names in an at-memory instruction. -/
def atSize (f : IBits) : Nat := if bits f 35 34 = 2 then 4 else 8

/-- Reserved and unused fields of an at-memory instruction (R190 check 1). -/
def atUnused (f : IBits) (rc size flag : Bool) : Bool :=
  decide (bits f 33 16 ≠ 0) || decide (bits f 3 0 ≠ 0) || (!flag && decide (bits f 15 4 ≠ 0)) ||
    (!rc && decide (bits f 40 36 ≠ 0)) || (!size && decide (bits f 35 34 ≠ 0))

/-- Fourth source register (R189). -/
def fRC (f : IBits) : Nat := bits f 40 36

/-- A scalar register has a result still to come (R155). -/
def State.setBusy (s : State) (k c rd : Nat) : State :=
  if rd = 0 then s else s.modCtx k c (fun t => { t with busy := rd :: t.busy })

/-- A result arrives in a scalar register. -/
def State.result (s : State) (k c rd : Nat) (v : Word64) : State :=
  (s.setSreg k c rd v).modCtx k c (fun t => { t with busy := t.busy.erase rd })

/-- The translation of a range for a core's context: a tenant's virtual addresses, or a firmware kernel's chip-local ones
(R236, R411, R415). -/
def State.coreTranslate (s : State) (k c a len : Nat) (wr : Bool) : State × List (Nat × Nat) × Status :=
  match s.partOf k c, s.phys k with
  | some p, some q => if h : q < 832 then s.translate (.pos ⟨q, h⟩) 0 p a len wr else (s, [], 0x0101)
  | _, _ => (s, [(a, len)], 0)

/-- The outcome of R38, and of R181 for the core's own window, on a translated range of core `k`. -/
def State.coreAccess (s : State) (k : CoreId) (c : CtxId) (ps : List (Nat × Nat)) : Status :=
  let st := s.piecesAccess (.core k) ps
  if st ≠ 0 then st
  else if ps.any (fun x => s.regionOf x.1 x.2 == some (.window k.val) && !s.owns k.val c.val (winOff x.1) x.2) then 0x0102
  else 0

/-- The partition that a context's accesses carry, none for the firmware binding (R181, R236). -/
def State.bindingOf (s : State) (k c : Nat) : Option PartId :=
  match s.partOf k c with
  | some p => if h : p < 16 then some ⟨p, h⟩ else none
  | none => none

/-- COUNT and CCOUNT (R190, R191). A counter of another core's window is reached by its inbound engine, and RD waits. -/
def State.issueCount (s : State) (k : CoreId) (op : Nat) (f : IBits) (cmp : Bool) : State :=
  s.issue k.val op f 5 [fRD f, fRA f, fRB f, fRC f] fun s c =>
    let va := (s.sreg k.val c.val (fRA f)).toNat
    let n := atSize f
    let rb := (s.sreg k.val c.val (fRB f)).toNat
    let rc := (s.sreg k.val c.val (fRC f)).toNat
    Issued.checked s [(atUnused f cmp true false, 0x0706), (decide (bits f 35 34 < 2), 0x0707), (va % n ≠ 0, 0x0708)] fun _ =>
      let (s, ps, st) := s.coreTranslate k.val c.val va n true
      if st ≠ 0 then .fault s st va 0
      else if s.coreAccess k c ps ≠ 0 then .fault s (s.coreAccess k c ps) va 0
      else
        let a := (ps.headD (0, 0)).1
        let go : Issued :=
          let (s1, old, st) := if cmp then s.countAt a n (some rb) rc else s.countAt a n none rb
          if st ≠ 0 then .fault s1 st va 0 else .done (s1.setSreg k.val c.val (fRD f) old)
        match s.regionOf a n with
        | some (.window j) =>
          if j = k.val then go
          else
            let rop : ReadOp :=
              if cmp then .ccount n (BitVec.ofNat 64 rb) (BitVec.ofNat 64 rc) else .count n (BitVec.ofNat 64 rb)
            let m : ReadMsg :=
              ⟨s.self k c, s.bindingOf k.val c.val, BitVec.ofNat 22 (winOff a), rop, (s.core k.val).seqNo,
               (BitVec.ofNat 5 (fRD f)).toFin, none⟩
            let w : CountWait := ⟨(s.core k.val).seqNo, s.pc k.val c.val, instrWord op f, fRD f⟩
            .done ((((s.setNet (s.net ++ [.read m j])) : State).setBusy k.val c.val (fRD f)).modCtx k.val c.val (fun t =>
              { t with counts := t.counts ++ [w] }))
        | _ => go

/-- COUNT (R191). -/
def execCount (k : CoreId) (f : IBits) (s : State) : Out := .next (s.issueCount k 0x70 f false)

/-- CCOUNT (R191). -/
def execCcount (k : CoreId) (f : IBits) (s : State) : Out := .next (s.issueCount k 0x71 f true)

/-- CTFLAG (R190, R192): arm a watch, or set the flag at once. -/
def execCtflag (k : CoreId) (f : IBits) (s : State) : Out :=
  .next (s.issue k.val 0x72 f 5 [fRD f, fRA f, fRB f] fun s c =>
    let ra := (s.sreg k.val c.val (fRA f)).toNat
    let n := atSize f
    let thr := watchThr n (s.sreg k.val c.val (fRB f))
    let fl := bits f 15 4
    Issued.checked s
      [(atUnused f false true true, 0x0706), (decide (bits f 35 34 < 2), 0x0707), (ra % n ≠ 0, 0x0708),
       (decide (padSize < ra + n), 0x0101), (!s.owns k.val c.val ra n, 0x0102), (!s.flagOk k.val c.val fl, 0x0901),
       (decide ((s.ctx k.val c.val).watches.length ≥ 16), 0x070C)] fun _ =>
      let x := s.armWatch k.val c.val ra n thr fl
      if x.2.2 ≠ 0 then .fault x.1 x.2.2 ra 0 else .done (x.1.setSreg k.val c.val (fRD f) x.2.1))

/-! ## Credits (R189, R190, R196, R198) -/

/-- The JOB that a context's messages carry: its partition's, or none for the firmware binding (R236, R406). -/
def State.jobOf (s : State) (k c : Nat) : Option (BitVec 16) :=
  (s.partOf k c).map (fun p => BitVec.ofNat 16 (s.fld (R.MMU_PJOB p) 15 0))

/-- A credit message to the destination that an address word names (R209). -/
def State.creditMsg (s : State) (k : CoreId) (c : CtxId) (ra arg : Word64) (xfer : Nat) : CreditMsg :=
  { src := s.self k c, job := s.jobOf k.val c.val, core := BitVec.ofNat 10 (bits ra 31 22),
    off := BitVec.ofNat 22 (bits ra 21 0), arg := arg, age := s.stamp, xfer := xfer }

/-- Send a credit message and wait for its response in RD. -/
def State.sendCredit (s : State) (k : CoreId) (c : CtxId) (ra arg : Word64) (ret : Bool) (rd : Nat) : State :=
  let q := (s.core k.val).seqNo
  let s1 : State := (s.setNet (s.net ++ [.credit (s.creditMsg k c ra arg q) (bits ra 63 50) ret]))
  (s1.modCtx k.val c.val (fun t => { t with credits := t.credits ++ [⟨s.epochOf (s.partOf k.val c.val), rd, ret, ra, s.ns, q, false⟩] })).setBusy k.val c.val rd

/-- CREDIT_REQ (R190, R196). -/
def execCreditReq (k : CoreId) (f : IBits) (s : State) : Out :=
  .next (s.issue k.val 0x73 f 5 [fRD f, fRA f, fRB f] fun s c =>
    let ra := s.sreg k.val c.val (fRA f)
    let len := (s.sreg k.val c.val (fRB f)).toNat
    Issued.checked s
      [(atUnused f false false false || decide (bits ra 49 32 ≠ 0), 0x0706),
       (decide (len % 4096 ≠ 0) || decide (len = 0) || decide (len > padSize), 0x0707),
       (bits ra 21 0 % 4096 ≠ 0, 0x0708)] fun _ =>
      .done (s.sendCredit k c ra (BitVec.ofNat 64 len) false (fRD f)))

/-- CREDIT_RET (R190, R198). -/
def execCreditRet (k : CoreId) (f : IBits) (s : State) : Out :=
  .next (s.issue k.val 0x74 f 5 [fRD f, fRA f, fRB f] fun s c =>
    let ra := s.sreg k.val c.val (fRA f)
    Issued.checked s
      [(atUnused f false false false || decide (bits ra 49 32 ≠ 0), 0x0706), (bits ra 21 0 % 4096 ≠ 0, 0x0708)] fun _ =>
      .done (s.sendCredit k c ra (s.sreg k.val c.val (fRB f)) true (fRD f)))

/-- The response to a credit message: it travels to the requester. -/
def State.creditAnswer (s : State) (m : CreditMsg) (word : Word64) : State :=
  (s.setNet (s.net ++ [.resp m.src m.xfer (BitVec.ofNat 16 (bits word 63 48)) word s.stamp]))

/-- Whether core `k` is the one a message reaches; a message that reaches no core is answered by any. -/
def reaches (t : Except Status (Option Nat × Nat)) (k : Nat) : Bool :=
  match t with
  | .ok (_, j) => j == k
  | .error _ => true

/-- CREDIT_REQUEST_ARRIVAL (R196, R406). A request older than AGE is dropped (R222). -/
def execCreditRequestArrival (k : CoreId) (m : CreditMsg) (s : State) : Out :=
  .next (
    let t := s.target m.job m.core.toNat
    if reaches t k.val = false ∨ s.shut k.val = true then s
    else
      let s := s.taken (.credit m s.chipId false)
      if s.tooOld k.val m.age then s
      else match t with
        | .error st => s.creditAnswer m (BitVec.ofNat 64 (st.toNat * 2 ^ 48))
        | .ok (b, j) =>
          let (s, w) := s.makeGrant j (m.off.toNat / 4096) (m.arg.toNat / 4096) b m.src false
          s.creditAnswer m w)

/-- CREDIT_RETURN_ARRIVAL (R198): a live grant of this tag, generation and source ends. -/
def execCreditReturnArrival (k : CoreId) (m : CreditMsg) (s : State) : Out :=
  .next (
    let t := s.target m.job m.core.toNat
    if reaches t k.val = false ∨ s.shut k.val = true then s
    else
      let s := s.taken (.credit m s.chipId true)
      if s.tooOld k.val m.age then s
      else
        let i := bits m.arg 7 0
        let g := (s.core k.val).grant i
        if t.toOption.isSome ∧ g.used = true ∧ g.lf = false ∧ g.gen = BitVec.ofNat 4 (bits m.arg 15 12) ∧ g.src = some m.src then
          (s.endGrant k.val i).creditAnswer m 0
        else s.creditAnswer m (BitVec.ofNat 64 (0x070D * 2 ^ 48)))

/-- The wait that a response with number `xfer` answers. -/
def CtxState.credit (t : CtxState) (xfer : Nat) : Option CreditWait := t.credits.find? (fun w => w.seq == xfer)

/-- The response to a credit message: the answer that waits in the network, or what arrives from another chip. -/
def State.creditResponse (s : State) (src : Source) (w : CreditWait) (word : Word64) (age : Nat) : Option (State × Word64 × Nat) :=
  match s.takeAnswer src w.seq with
  | some (s, _, v, a) => some (s, v, a)
  | none => if bits w.addr 63 50 = s.chipId then none else some (s, word, age)

/-- CREDIT_RESPONSE (R196, R198, R222): the response word lands in RD; `word` and `age` are those of a response from another
chip. A response older than AGE is discarded, one from before a partition-scope reset is late (R303), and a stale one that carries a grant returns it. -/
def execCreditResponse (k : CoreId) (c : CtxId) (xfer : BitVec 64) (word : Word64) (age : BitVec 24) (s : State) : Out :=
  .next (match (s.ctx k.val c.val).credit xfer.toNat with
    | none => s
    | some w => match s.creditResponse (s.self k c) w word age.toNat with
    | none => s
    | some (s, word, age) =>
      if s.tooOld k.val age then s
      else
        let s := s.modCtx k.val c.val (fun t => { t with credits := t.credits.erase w })
        s.ifCurrent k.val c.val 1 w.seq w.epoch <|
        if w.dead = false then s.result k.val c.val w.rd word
        else if w.ret = false ∧ bits word 63 48 = 0 ∧ bits word 47 32 ≠ 0 then
          ((s.setNet (s.net ++ [.credit (s.creditMsg k c w.addr word w.seq) (bits w.addr 63 50) true])) : State).satInc
            (R.SP_DROP_CNT k.val) 31 0
        else s)

/-- CREDIT_TIMEOUT (R196, R198, R203): no response within SP_CREDIT_CFG.TMO; a response that is there wins. -/
def execCreditTimeout (k : CoreId) (c : CtxId) (xfer : BitVec 64) (s : State) : Out :=
  .next (match (s.ctx k.val c.val).credit xfer.toNat with
    | none => s
    | some w =>
      if w.dead ∨ s.net.any (answersXfer (s.self k c) w.seq) ∨ s.ns < w.issued + max 1 (s.fld (R.SP_CREDIT_CFG k.val) 15 0) * 1000 then s
      else
        (s.modCtx k.val c.val (fun t => { t with credits := t.credits.map (fun x =>
          if x.seq = w.seq then { x with dead := true } else x) })).result k.val c.val w.rd (BitVec.ofNat 64 (0x0709 * 2 ^ 48)))

/-- GRANT_LEASE_EXPIRY (R198, R203): a grant has lived its lease. -/
def execGrantLeaseExpiry (k : CoreId) (tag : BitVec 8) (s : State) : Out :=
  .next (
    let g := (s.core k.val).grant tag.toNat
    if g.used ∧ g.lease ≠ 0 ∧ g.madeAt + g.lease * 1000 ≤ s.ns then s.endGrant k.val tag.toNat else s)

end Sys2Proof.Machine
end

