-- ==== Sys2Proof/Machine/Transfer.lean ====
section
/-!
DEFINITION. Transfers and put groups (chapter 08).
-/

namespace Sys2Proof.Machine

/-! ## Issue (R208 to R212) -/

/-- Fields of a transfer (R208). -/
def xRA (f : IBits) : Nat := bits f 55 51
def xRB (f : IBits) : Nat := bits f 50 46
def xRC (f : IBits) : Nat := bits f 45 41
def xRG (f : IBits) : Nat := bits f 40 36

/-- Reserved instruction bits, and a flag number without FEN (R208). -/
def xferReserved (f : IBits) (nc : Bool) : Bool :=
  decide (bits f 34 17 ≠ 0) || decide (bits f 3 0 ≠ 0) || flagUnused f || (!nc && bit f 35)

/-- Put an entry into the DMA queue of core `k`, at this instruction's place in program order. -/
def State.queueDma (s : State) (k : Nat) (e : DmaEntry) : State := s.modCore k (fun x => { x with dq := x.dq ++ [e] })

/-- TMO of core `k` in elapsed ns (R230). -/
def State.xferTmo (s : State) (k : Nat) : Nat := max 1 (s.fld (R.SP_XFER_CFG k) 31 24) * 1000000

/-- HOLD of core `k` in elapsed ns (R230). -/
def State.groupHold (s : State) (k : Nat) : Nat := max 1 (s.fld (R.SP_XFER_CFG k) 23 16) * 1000000

/-- The DMA queue of core `k` is full: the next transfer instruction stalls (R212). -/
def State.dmaFull (s : State) (k : Nat) : Bool := decide ((s.core k).dq.length ≥ 16)

/-- The entry of a transfer that issues now. -/
def State.dmaEntry (s : State) (k : Nat) (c : CtxId) (kind : DmaKind) (f : IBits) (remote : Nat) (pieces : List (Nat × Nat))
    (off len : Nat) (ctl : Word64) : DmaEntry :=
  { kind := kind, ctx := c, epoch := s.epochOf (s.partOf k c.val), seq := (s.core k).seqNo, pc := s.pc k c.val, remote := remote, pieces := pieces, off := off,
    len := len, ctl := ctl, nc := bit f 35, fen := bit f 16, flag := bits f 15 4, f := f, issued := s.ns,
    tmo := s.xferTmo k, status := 0, resp := none, data := [] }

/-- The checks 2 to 4 of R211 on the length and the local range. -/
def State.localChecks (s : State) (k c off len lo : Nat) : List (Bool × Status) :=
  [(decide (len < lo) || decide (len > 16777216), 0x0802), (decide (padSize < off + len), 0x0101),
   (!s.owns k c off len, 0x0102)]

/-- Where the remote range of a DGET or DPUT lies after translation. -/
inductive Home where
  | hbm
  | own
  | window (j : Nat)
  | none
  deriving DecidableEq, Repr

/-- The home of translated pieces: R38 check 3 leaves them in one region (R38, R415). -/
def State.homeOf (s : State) (k : Nat) (ps : List (Nat × Nat)) : Home :=
  match ps with
  | [] => .none
  | x :: _ => match s.regionOf x.1 x.2 with
    | some (.window j) => if j = k then .own else .window j
    | some .hbm => .hbm
    | some (.phys _) => .hbm
    | _ => .none

/-- The number of the logical core whose window a DPUT's address names, before any check of it (R210). -/
def State.otherWindow (s : State) (k c va : Nat) : Bool :=
  if va < winBase ∨ physBase ≤ va then false
  else
    let j := (va - winBase) / 0x40_0000
    match s.partOf k c with
    | some p => s.partCore p j != some k
    | none => j != k

/-- A read message to core `j`. -/
def State.readMsg (s : State) (k : CoreId) (c : CtxId) (a len : Nat) : ReadMsg :=
  ⟨s.self k c, s.bindingOf k.val c.val, BitVec.ofNat 22 (winOff a), .bytes len, (s.core k.val).seqNo, 0, none⟩

/-- DGET (R208, R211). A read of another core's window goes to its inbound engine. -/
def execDget (k : CoreId) (f : IBits) (s : State) : Out :=
  .next (s.issue k.val 0x80 f 4 [xRA f, xRB f, xRC f, xRG f] fun s c =>
    if s.dmaFull k.val then .stall else
    let va := (s.sreg k.val c.val (xRA f)).toNat
    let rb := s.sreg k.val c.val (xRB f)
    let off := bits rb 21 0
    let len := (s.sreg k.val c.val (xRC f)).toNat
    Issued.checked s
      ([(xferReserved f true || decide (bits rb 63 22 ≠ 0) || decide (xRG f ≠ 0), 0x0801)] ++
        s.localChecks k.val c.val off len 1) fun _ =>
      let (s, ps, st) := s.coreTranslate k.val c.val va len false
      let st := if st ≠ 0 then st else s.coreAccess k c ps
      let fl := s.flagBad k.val c.val f
      if st ≠ 0 then .fault s st va 0
      else if fl then .fault s 0x0901 0 0
      else
        let e := s.dmaEntry k.val c .dget f va ps off len 0
        match s.homeOf k.val ps with
        | .window j =>
          .done ((((s.setNet (s.net ++ [.read (s.readMsg k c (ps.headD (0, 0)).1 len) j])) : State)).queueDma k.val e)
        | _ => .done (s.queueDma k.val e))

/-- DPUT (R208, R210, R211). A write to another core's window reads its source now and travels with its grant. -/
def execDput (k : CoreId) (f : IBits) (s : State) : Out :=
  .next (s.issue k.val 0x81 f 4 [xRA f, xRB f, xRC f, xRG f] fun s c =>
    if s.dmaFull k.val then .stall else
    let va := (s.sreg k.val c.val (xRA f)).toNat
    let rb := s.sreg k.val c.val (xRB f)
    let off := bits rb 21 0
    let len := (s.sreg k.val c.val (xRC f)).toNat
    let ctl := s.sreg k.val c.val (xRG f)
    let ctlBad := if s.otherWindow k.val c.val va then decide (bits ctl 63 16 ≠ 0) || decide (bits ctl 11 8 ≠ 0)
      else decide (xRG f ≠ 0)
    Issued.checked s
      ([(xferReserved f false || decide (bits rb 63 22 ≠ 0) || ctlBad, 0x0801)] ++
        s.localChecks k.val c.val off len 1) fun _ =>
      let (s, ps, st) := s.coreTranslate k.val c.val va len true
      let st := if st ≠ 0 then st else s.coreAccess k c ps
      if st ≠ 0 then .fault s st va 0
      else if s.flagBad k.val c.val f then .fault s 0x0901 0 0
      else
        let e := s.dmaEntry k.val c .dput f va ps off len ctl
        match s.homeOf k.val ps with
        | .window j =>
          let (s, d, st) := s.padRead k.val off len
          let m : WriteMsg :=
            ⟨s.self k c, s.bindingOf k.val c.val, false, BitVec.ofNat 4 (bits ctl 15 12), BitVec.ofNat 8 (bits ctl 7 0),
             BitVec.ofNat 22 (winOff (ps.headD (0, 0)).1), d, e.seq, none⟩
          .done (((s.setNet (s.net ++ [.write m j])) : State).queueDma k.val { e with status := st })
        | _ => .done (s.queueDma k.val e))

/-- PUT and PUTF (R209 to R211): the source is read now and the put leaves for its destination. -/
def State.issuePut (s : State) (k : CoreId) (op : Nat) (f : IBits) (final : Bool) : State :=
  s.issue k.val op f 4 [xRA f, xRB f, xRC f, xRG f] fun s c =>
    if s.dmaFull k.val then .stall else
    let ra := s.sreg k.val c.val (xRA f)
    let rb := s.sreg k.val c.val (xRB f)
    let off := bits rb 21 0
    let len := (s.sreg k.val c.val (xRC f)).toNat
    let ctl := s.sreg k.val c.val (xRG f)
    let ctlBad := decide (bits ctl 50 48 ≠ 0) || decide (bits ctl 11 8 ≠ 0) ||
      (!final && (decide (bits ctl 63 51 ≠ 0) || decide (bits ctl 27 16 ≠ 0)))
    Issued.checked s
      ([(xferReserved f false || decide (bits rb 63 22 ≠ 0) || decide (bits ra 49 32 ≠ 0) || ctlBad, 0x0801)] ++
        s.localChecks k.val c.val off len (if final then 0 else 1) ++
        [(decide (padSize < bits ra 21 0 + len), 0x0101), (!s.routable (bits ra 63 50), 0x0803),
         (s.flagBad k.val c.val f, 0x0901)]) fun _ =>
      let e := s.dmaEntry k.val c (if final then .putf else .put) f ra.toNat [] off len ctl
      let (s, d, st) := if len = 0 then (s, [], 0) else s.padRead k.val off len
      let m : PutMsg :=
        ⟨s.self k c, s.jobOf k.val c.val, BitVec.ofNat 10 (bits ra 31 22), BitVec.ofNat 22 (bits ra 21 0), ctl, final, d,
         s.stamp, e.seq⟩
      .done (((s.setNet (s.net ++ [.put m (bits ra 63 50)])) : State).queueDma k.val { e with status := st })

/-- PUT (R208). -/
def execPut (k : CoreId) (f : IBits) (s : State) : Out := .next (s.issuePut k 0x82 f false)

/-- PUTF (R208). -/
def execPutf (k : CoreId) (f : IBits) (s : State) : Out := .next (s.issuePut k 0x83 f true)

/-! ## The read buffer (R214) -/

/-- The lines of 128 B that a range touches. -/
def linesOf (a len : Nat) : List Nat :=
  if len = 0 then [] else (List.range ((a + len - 1) / 128 + 1 - a / 128)).map (· + a / 128)

/-- The bytes of a line as HBM holds them, none of them poisoned. -/
def State.lineBytes (s : State) (l : Nat) : Option (List TByte) :=
  if (wordsOf (128 * l) 128).all (fun w => (s.hbmResolve w).isNone) then
    some ((List.range 128).map (fun i => some (s.hbmReadByte (128 * l + i))))
  else none

/-- Keep a line as it now stands for the kernel of context `c`; the oldest of 64 leaves. -/
def State.fillLine (s : State) (k : Nat) (c : CtxId) (l : Nat) : State :=
  match s.lineBytes l with
  | some b => s.modCore k (fun x => { x with
      rbuf := (⟨c, l, b⟩ :: x.rbuf.filter (fun e => !(e.ctx = c && e.line == l))).take 64 })
  | none => s

/-- Read the part of an HBM range that lies in one line, from the buffer where an open choice serves it from there: only a
line that the same context's kernel filled. -/
def State.lineRead (s : State) (k : Nat) (c : CtxId) (l a len : Nat) (nc : Bool) : State × List TByte × Status :=
  let lo := max a (128 * l)
  let n := min (a + len) (128 * l + 128) - lo
  match (s.core k).rbuf.find? (fun e => e.ctx = c && e.line == l) with
  | some e =>
    if !nc && Config.lineServed l s.free then (s.takeFree, (e.data.drop (lo - 128 * l)).take n, 0)
    else
      let (s, d, st) := s.hbmRead lo n
      (if nc then s else s.fillLine k c l, d, st)
  | none =>
    let (s, d, st) := s.hbmRead lo n
    (if nc then s else s.fillLine k c l, d, st)

/-- Read a range of HBM line by line for context `c` of core `k` (R214). -/
def State.bufRead (s : State) (k : Nat) (c : CtxId) (a len : Nat) (nc : Bool) : State × List TByte × Status :=
  (linesOf a len).foldl (fun (x : State × List TByte × Status) l =>
    let (s, d, st) := x.1.lineRead k c l a len nc
    (s, x.2.1 ++ d, if x.2.2 = 0 then st else x.2.2)) (s, [], 0)

/-- Read the pieces of a DGET. -/
def State.dgetRead (s : State) (k : Nat) (c : CtxId) (nc : Bool) : List (Nat × Nat) → State × List TByte × Status
  | [] => (s, [], 0)
  | (a, n) :: r =>
    let (s, d, st) := if s.regionOf a n = some .hbm then s.bufRead k c a n nc else s.memRead a n
    let x := s.dgetRead k c nc r
    (x.1, d ++ x.2.1, if st = 0 then x.2.2 else st)

/-- A DPUT to HBM updates the lines it covers in its own core's buffer. -/
def State.bufWrite (s : State) (k a : Nat) (d : List TByte) : State :=
  s.modCore k (fun x => { x with rbuf := x.rbuf.map (fun e =>
    { e with data := (List.range 128).map (fun i =>
      let p := 128 * e.line + i
      if a ≤ p ∧ p < a + d.length then (d[p - a]?).getD none else (e.data[i]?).getD none) }) })

/-! ## Completion (R206, R212, R213, R231) -/

/-- Record a transfer's failure in SP_XFER_ERR_k (R231). -/
def State.xferErr (s : State) (k c op : Nat) (st : Status) : State :=
  let a := R.SP_XFER_ERR k c
  let s := if s.fld a 63 48 = 0 then (s.setFld a 63 48 st.toNat).setFld a 47 40 op else s
  s.satInc a 31 0

/-- The descriptor of the context's kernel takes its first transfer status (R291). -/
def State.descXfer (s : State) (k c : Nat) (st : Status) : State :=
  match s.descOf k c with
  | some d => (s.setFe { s.fe with descs := s.fe.descs.map (fun x =>
      if x.id = d.id ∧ x.xstatus = 0 then { x with xstatus := st } else x) })
  | none => s

/-- A transfer reaches its completion point: its entry leaves the queue, its flag is set, or its status recorded; one from
before a partition-scope reset is late (R303). -/
def State.finishXfer (s : State) (k : Nat) (e : DmaEntry) (st : Status) : State :=
  let s := s.modCore k (fun x => { x with dq := x.dq.erase e })
  s.ifCurrent k e.ctx.val 2 e.seq e.epoch <|
  if st = 0 then s.fenSet k e.fen e.flag
  else (s.xferErr k e.ctx.val e.kind.opcode st).descXfer k e.ctx.val st

/-- Write what a DGET read into the issuing core's banks (R181, R186). -/
def State.storeLocal (s : State) (k : Nat) (e : DmaEntry) (d : List TByte) : State × Status :=
  s.rowWrite k e.ctx.val e.off d

/-- The first status other than GS_0000. -/
def orStatus (a b : Status) : Status := if a = 0 then b else a

/-- Move a DGET's bytes and complete it. -/
def State.endDget (s : State) (k : Nat) (e : DmaEntry) : State :=
  match e.resp with
  | some st =>
    if e.data = [] then s.finishXfer k e st
    else
      let (s, w) := s.storeLocal k e e.data
      s.finishXfer k e (orStatus st w)
  | none =>
    let own := s.homeOf k e.pieces == .own
    if own && !s.owns k e.ctx.val (winOff (e.pieces.headD (0, 0)).1) e.len then s.finishXfer k e 0x0102
    else
      let (s, d, st) := s.dgetRead k e.ctx e.nc e.pieces
      let (s, w) := s.storeLocal k e d
      s.finishXfer k e (orStatus st w)

/-- Move a DPUT's bytes to HBM or the core's own window and complete it. -/
def State.endDput (s : State) (k : Nat) (e : DmaEntry) : State :=
  let own := s.homeOf k e.pieces == .own
  if own && !s.owns k e.ctx.val (winOff (e.pieces.headD (0, 0)).1) e.len then s.finishXfer k e 0x0102
  else
    let (s, d, st) := s.rowRead k e.ctx.val e.off e.len
    if st = 0x0102 then s.finishXfer k e st
    else
      let (s, w) := s.piecesWrite d e.pieces
      let s := (e.pieces.foldl (fun (x : State × List TByte) p =>
        (if x.1.regionOf p.1 p.2 = some .hbm then x.1.bufWrite k p.1 (x.2.take p.2) else x.1, x.2.drop p.2)) (s, d)).1
      s.finishXfer k e (orStatus st w)

/-- Whether a transfer waits for a response that reaches it from another core or chip. -/
def State.answered (s : State) (k : Nat) (e : DmaEntry) : Bool :=
  match e.kind with
  | .put | .putf => true
  | _ => match s.homeOf k e.pieces with
    | .window _ => true
    | _ => false

/-- Whether a transfer's answer comes by the network: a put to another chip (R206, R213). -/
def State.farPut (s : State) (e : DmaEntry) : Bool :=
  (e.kind == .put || e.kind == .putf) && decide (e.remote / 2 ^ 50 ≠ s.chipId)

/-- Whether the chip of a put lies beyond a port that faces an older generation (R331). -/
def State.olderWay (s : State) (chip : Nat) : Bool :=
  match (s.outPort chip).bind s.portPartner with
  | some (_, gen) => gen == 1 || gen == 2
  | none => false

/-- The response of a far put: the answer of this chip's own port, which waits in the network (R319), else what arrives
from the other chip with its stamp; an older generation's acknowledgement is a success or GS_0C05, stamped at the port
(R222, R331). -/
def State.farAnswer (s : State) (src : Source) (e : DmaEntry) (status : Status) (age : Nat) : State × Status × Nat :=
  match s.takeAnswer src e.seq with
  | some (s, st, _, a) => (s, st, a)
  | none =>
    if s.olderWay (e.remote / 2 ^ 50) then (s, if status = 0 then 0 else 0x0C05, s.stamp) else (s, status, age)

/-- TRANSFER_COMPLETE (R206, R212, R222): the transfer's bytes have moved, or its response has come; `status` and `age` are
those of a response from another chip. A response older than AGE is discarded. Bytes of a sleeping stack wait for it (R458). -/
def execTransferComplete (k : CoreId) (id : BitVec 64) (resp : FarResponse) (s : State) : Out :=
  .next (match (if s.tripped then none else (s.core k.val).dq.find? (fun e => e.seq == id.toNat)) with
    | none => s
    | some e =>
      if s.farPut e then
        let (s, st, a) := s.farAnswer (s.self k e.ctx) e resp.status resp.age.toNat
        if s.tooOld k.val a then s else s.finishXfer k.val e (orStatus e.status st)
      else if s.answered k.val e then
        match e.resp with
        | some st => if e.kind = .dget then s.endDget k.val e else s.finishXfer k.val e (orStatus e.status st)
        | none => s
      else if s.pieceStacks e.pieces then s
      else match e.kind with
        | .dget => s.endDget k.val e
        | _ => s.endDput k.val e)

/-- XFER_TIMEOUT (R213, R230): no response within TMO, as it stood at the issue. A response that is there wins. -/
def execXferTimeout (k : CoreId) (id : BitVec 64) (s : State) : Out :=
  .next (match (s.core k.val).dq.find? (fun e => e.seq == id.toNat) with
    | none => s
    | some e =>
      let waits := s.answered k.val e || s.homeOf k.val e.pieces == .hbm
      if waits ∧ e.resp = none ∧ s.net.any (answersXfer (s.self k e.ctx) e.seq) = false ∧ e.issued + e.tmo ≤ s.ns then
        s.finishXfer k.val e 0x0804
      else s)

/-! ## Remote accesses (R181, R194, R197) -/

/-- The checks of an inbound access on its range: GS_0101 outside the window, GS_0102 where the partition owns not all of
it (R38, R181). -/
def State.inboundAccess (s : State) (k off len : Nat) (part : Option PartId) : Status :=
  if (s.phys k).isNone ∨ padSize < off + len then 0x0101
  else if s.boundOwns k off len (part.map (fun p => p.val)) then 0 else 0x0102

/-- A write of bytes by the inbound engine; a word that refuses a merge is counted and reported (R186). -/
def State.inboundStore (s : State) (k off : Nat) (d : List TByte) : State × Status :=
  let (s, ok) := s.padWrite k off d
  if ok then (s, 0) else (s.satInc (R.SP_DROP_CNT k) 31 0, 0x0705)

/-- A remote write that is no put (R194, R197): performed, or dropped, counted and logged. -/
def State.inboundWrite (s : State) (k : Nat) (m : WriteMsg) : State × Status :=
  let st := s.inboundAccess k m.off.toNat m.data.length m.part
  if st ≠ 0 then (s, st)
  else if (s.core k).grantOk m.tag.toNat m.gen m.src m.lf m.off.toNat m.data.length then s.inboundStore k m.off.toNat m.data
  else ((s.satInc (R.SP_DROP_CNT k) 31 0).logEvent (s.warden k) 0x0101 1
    (srcLog m.src ++ [m.tag.toNat, m.gen.toNat, 0x080C]), 0x080C)

/-- The core that asked for an at-memory operation takes its result: the old value, or a fault of the COUNT with the status
(R187, R305). -/
def State.countResult (s : State) (m : ReadMsg) (old : Word64) (st : Status) : State :=
  let k := m.src.core.val
  let c := m.src.ctx
  match (s.ctx k c.val).counts.find? (fun w => w.seq == m.xfer) with
  | none => s
  | some w =>
    let s := s.modCtx k c.val (fun t => { t with counts := t.counts.erase w })
    if st = 0 then s.result k c.val w.rd old
    else (s.modCtx k c.val (fun t => { t with busy := t.busy.erase w.rd })).faultCtx k c
      { unit := 5, status := st, seq := w.seq, pc := w.pc, instr := w.instr, addr := m.off.toNat }

/-! ## Put groups (R217 to R221) -/

/-- GROUP, GGEN, EXPECT, DFLAG, REL, CGEN and TAG of a control word (R210). -/
def ctlGroup (w : Word64) : Nat := bits w 47 32
def ctlGgen (w : Word64) : Nat := bits w 31 28
def ctlExpect (w : Word64) : Nat := bits w 27 16
def ctlDflag (w : Word64) : Nat := bits w 63 52
def ctlRel (w : Word64) : Bool := bit w 51
def ctlCgen (w : Word64) : BitVec 4 := BitVec.ofNat 4 (bits w 15 12)
def ctlTag (w : Word64) : Nat := bits w 7 0

/-- The entry for a group. -/
def CtxState.group (t : CtxState) (g : Nat) : Option Group := t.groups.find? (fun e => e.group == g)

/-- Put an entry in place of the one of its group. -/
def State.setEntry (s : State) (k c : Nat) (e : Group) : State :=
  s.modCtx k c (fun t =>
    let gs := t.groups
    let new := if gs.any (fun x => x.group == e.group) then gs.map (fun x => if x.group = e.group then e else x) else gs ++ [e]
    { t with groups := new })

/-- Record a group closed as failed in SP_PG_ERR_k (R232). -/
def State.pgErr (s : State) (k c : Nat) (e : Group) (st : Status) : State :=
  s.firstErr (R.SP_PG_ERR k c) (BitVec.ofNat 64 (st.toNat * 2 ^ 48 + e.ggen * 2 ^ 16 + e.group))

/-- Close an entry as failed: no flag, its held FINAL answered with `fst` (R220, R221). -/
def State.closeGroup (s : State) (k c : Nat) (e : Group) (st fst : Status) : State :=
  let s := match e.final with
    | some h => s.respond h.src h.xfer fst []
    | none => s
  (s.setEntry k c { e with st := .closed, final := none, closedAt := s.ns }).pgErr k c e st

/-- Whether a held FINAL is due (R220). -/
def Group.due (e : Group) : Bool :=
  match e.final with
  | some h => decide (e.st = .opened) && decide (h.expect ≤ e.landed + e.failed)
  | none => false

/-- The inbound engine acts on a FINAL that is due (R220). -/
def State.applyFinal (s : State) (k c : Nat) (e : Group) : State :=
  match e.final with
  | none => s
  | some h =>
    if e.failed = 0 ∧ e.landed = h.expect ∧ h.ue = false then
      let s := s.setFlag k h.dflag
      let s := if h.rel && (s.core k).grantIs h.tag h.cgen h.src then s.endGrant k h.tag else s
      (s.respond h.src h.xfer 0 []).setEntry k c { e with st := .closed, final := none, closedAt := s.ns }
    else
      let st : Status := if h.ue then 0x0705 else 0x0809
      s.closeGroup k c e st st

/-- FINAL_APPLY (R220). -/
def execFinalApply (k : CoreId) (c : CtxId) (group : BitVec 16) (s : State) : Out :=
  .next (match (s.ctx k.val c.val).group group.toNat with
    | none => s
    | some e => if e.due then s.applyFinal k.val c.val e else s)

/-- GROUP_HOLD_TIMEOUT (R221): an entry has stayed OPEN for HOLD; a FINAL that is due wins (R224). -/
def execGroupHoldTimeout (k : CoreId) (c : CtxId) (group : BitVec 16) (s : State) : Out :=
  .next (match (s.ctx k.val c.val).group group.toNat with
    | none => s
    | some e =>
      if e.st = .opened ∧ e.due = false ∧ e.openedAt + e.hold ≤ s.ns then
        s.closeGroup k.val c.val e 0x080A 0x080A
      else s)

/-- Close every OPEN entry of a context as failed, FINALs that are due first (R221, R224). -/
def State.flushGroups (s : State) (k c : Nat) : State :=
  (s.ctx k c).groups.foldl (fun s e =>
    if e.st = .opened then (if e.due then s.applyFinal k c e else s.closeGroup k c e 0x080B 0x080B) else s) s

/-- Every entry of a context becomes FREE, as when its residency ends (R217, R221). -/
def State.dropGroups (s : State) (k c : Nat) : State :=
  (s.flushGroups k c).modCtx k c (fun t => { t with groups := [] })

/-- Write SP_PG_CTL_k (R221, R228). -/
def State.wrSpPgCtl (s : State) (k c : Nat) (v : Word64) : State := if bit v 31 then s.flushGroups k c else s

/-- Write SP_PG_CFG_k (R226, R227). -/
def State.wrSpPgCfg (s : State) (k c : Nat) (v : Word64) : State :=
  let a := R.SP_PG_CFG k c
  let bcn := bits v 26 23
  if bcn ≥ 13 ∨ bits v 2 0 ≠ 0 ∨ s.owns k c (bits v 21 0) (8 * 2 ^ bcn) = false then s.regErr a 0x080D
  else
    let s := if bit v 31 ≠ s.bitOf a 31 then
        (s.flushGroups k c).modCtx k c (fun t => { t with groups := t.groups.map (fun e => { e with landed := 0, failed := 0 }) })
      else s
    s.setReg a v

/-- What SP_PG_STAT_k reads as (R229). -/
def State.spPgStat (s : State) (k c : Nat) : Word64 :=
  let gs := (s.ctx k c).groups
  BitVec.ofNat 64 ((gs.filter (fun e => decide (e.st = .opened))).length * 2 ^ 8 +
    (gs.filter (fun e => decide (e.st = .closed))).length)

/-! ## Arrival of a put (R218, R219, R225) -/

/-- Whether a generation is accepted (R219). -/
def genAccepted (e : Option Group) (x : Nat) : Bool :=
  match e with
  | none => true
  | some g => match g.st with
    | .opened => x == g.ggen
    | .closed =>
      let d := (x + 16 - g.ggen) % 16
      decide (1 ≤ d) && decide (d ≤ 7)

/-- The table with room for a new entry of group `g` (R217): a FREE entry, or the one CLOSED longest, for AGE at least. -/
def State.groupRoom (s : State) (k c g : Nat) : Option (List Group) :=
  let gs := (s.ctx k c).groups
  if gs.any (fun e => e.group == g) || decide (gs.length < 64) then some gs
  else
    let old := (gs.filter (fun e => decide (e.st = .closed) && decide (e.closedAt + s.ageLimit k * 1000 ≤ s.ns))).foldl
      (fun (m : Option Group) e => match m with
        | none => some e
        | some x => if e.closedAt < x.closedAt then some e else some x) none
    old.map (fun x => gs.erase x)

/-- A put that fails counts as a failed member of its OPEN entry (R218). -/
def State.failMember (s : State) (k c : Nat) (w : Word64) : State :=
  match (s.ctx k c).group (ctlGroup w) with
  | some e => if e.st = .opened ∧ e.ggen = ctlGgen w then s.setEntry k c { e with failed := e.failed + 1 } else s
  | none => s

/-- A put is dropped (R218): counted, logged, answered. -/
def State.dropPut (s : State) (k : Nat) (m : PutMsg) (st : Status) : State :=
  ((s.satInc (R.SP_PG_DROP_CNT k) 31 0).logEvent (s.warden k) 0x0102 1
    (srcLog m.src ++ [ctlGroup m.ctl, ctlGgen m.ctl, st.toNat])).respond m.src m.tag st []

/-- The context of core `k` that a put reaches: the owner of the segment at its offset. -/
def State.putCtx (s : State) (k off : Nat) : Option Nat := s.segOwner k (off / 0x10000)

/-- The first failing check of a put at core `k`, context `c` (R218). -/
def State.putChecks (s : State) (k c : Nat) (b : Option Nat) (m : PutMsg) : Option Status :=
  let off := m.off.toNat
  let len := m.data.length
  let e := (s.ctx k c).group (ctlGroup m.ctl)
  let byteCount := s.bitOf (R.SP_PG_CFG k c) 31
  let held := match e with
    | some g => decide (g.st = .opened) && g.final.isSome
    | none => false
  firstOf
    [(s.tooOld k m.age, 0x0808),
     (decide (padSize < off + max len 1), 0x0101),
     (!s.boundOwns k off (max len 1) b, 0x0102),
     (!byteCount && !genAccepted e (ctlGgen m.ctl), 0x0805),
     (!byteCount && m.final && held, 0x0807),
     (!byteCount && m.final && !s.flagOk k c (ctlDflag m.ctl), 0x0901),
     (byteCount && decide (ctlGgen m.ctl ≠ s.fld (R.SP_PG_CFG k c) 30 27), 0x0805),
     (!(s.core k).grantOk (ctlTag m.ctl) (ctlCgen m.ctl) m.src false off len, 0x080C),
     (!byteCount && (s.groupRoom k c (ctlGroup m.ctl)).isNone, 0x0806)]

/-- A put in byte-count mode (R225). One whose bytes R186 refuses at a word still counts its length and, with REL, ends its grant:
DESIGN CHOICE, log entry 98. -/
def State.putBytes (s : State) (k c : Nat) (m : PutMsg) : State :=
  let (s, w) := s.inboundStore k m.off.toNat m.data
  let cfg := R.SP_PG_CFG k c
  let a := winBase + k * 0x40_0000 + s.fld cfg 21 0 + 8 * (ctlGroup m.ctl % 2 ^ s.fld cfg 26 23)
  let (s, _, st) := s.countAt a 8 none m.data.length
  let s := if m.final && ctlRel m.ctl then s.endGrant k (ctlTag m.ctl) else s
  s.respond m.src m.tag (orStatus w st) []

/-- A put in normal mode (R218 to R220): a member lands, or fails on a word it could not merge; a FINAL is held. -/
def State.putGroup (s : State) (k c : Nat) (m : PutMsg) : State :=
  let g := ctlGroup m.ctl
  let s : State := match s.groupRoom k c g with
    | some gs => s.modCtx k c (fun t => { t with groups := gs })
    | none => s
  let fresh : Group := ⟨g, ctlGgen m.ctl, GroupSt.opened, 0, 0, none, s.ns, 0, s.groupHold k⟩
  let e : Group := match (s.ctx k c).group g with
    | some e => if e.st = .opened then e else fresh
    | none => fresh
  let (s, w) := s.inboundStore k m.off.toNat m.data
  if m.final then
    s.setEntry k c { e with final := some ⟨m.src, ctlExpect m.ctl, ctlDflag m.ctl, ctlRel m.ctl, ctlTag m.ctl, ctlCgen m.ctl,
      decide (w ≠ 0), m.tag⟩ }
  else
    (s.setEntry k c (if w = 0 then { e with landed := e.landed + 1 } else { e with failed := e.failed + 1 })).respond
      m.src m.tag w []

/-- The contexts of core `k` that a put's binding reaches: those of its partition, or those that no partition holds. -/
def State.boundCtxs (s : State) (k : Nat) (b : Option Nat) : List Nat := (List.range 4).filter (fun c => s.partOf k c = b)

/-- A put that fails check 1, 2 or 4 counts as a failed member of the OPEN entry that it names, at the owner of its first
segment where its binding reaches it, else at the first context that the binding reaches and that holds such an entry. -/
def State.failPut (s : State) (k : Nat) (b : Option Nat) (m : PutMsg) : State :=
  let cs := s.boundCtxs k b
  let open? (c : Nat) : Bool := match (s.ctx k c).group (ctlGroup m.ctl) with
    | some e => decide (e.st = .opened) && decide (e.ggen = ctlGgen m.ctl) && !s.bitOf (R.SP_PG_CFG k c) 31
    | none => false
  match s.putCtx k m.off.toNat with
  | some c => if cs.contains c then s.failMember k c m.ctl
      else (match cs.find? open? with | some d => s.failMember k d m.ctl | none => s)
  | none => (match cs.find? open? with | some d => s.failMember k d m.ctl | none => s)

/-- A put reaches core `k` (R218): its age is checked first, even where its JOB and CORE reach nothing. -/
def State.putAt (s : State) (k : Nat) (m : PutMsg) : State :=
  match s.target m.job m.core.toNat with
  | .error st => s.dropPut k m (if s.tooOld k m.age then 0x0808 else st)
  | .ok (b, j) =>
    let first : Except Status Nat := match s.putCtx j m.off.toNat with
      | none => .error (if s.tooOld j m.age then 0x0808 else if padSize < m.off.toNat + max m.data.length 1 then 0x0101 else 0x0102)
      | some c => (match s.putChecks j c b m with | some st => .error st | none => .ok c)
    match first with
    | .error st =>
      (if st = 0x0808 ∨ st = 0x0101 ∨ st = 0x0102 ∨ st = 0x080C then s.failPut j b m else s).dropPut j m st
    | .ok c => if s.bitOf (R.SP_PG_CFG j c) 31 then s.putBytes j c m else s.putGroup j c m

/-- PUT_ARRIVAL (R218, R219, R225). A held window keeps the packet waiting (R39). -/
def execPutArrival (k : CoreId) (m : PutMsg) (s : State) : Out :=
  .next (
    if reaches (s.target m.job m.core.toNat) k.val = false ∨ s.shut k.val = true then s
    else (s.taken (.put m s.chipId)).putAt k.val m)

end Sys2Proof.Machine
end

