-- ==== Sys2Proof/Machine/Waiting.lean ====
section
/-!
DEFINITION. The flag instructions and WAIT (chapter 09).
-/

namespace Sys2Proof.Machine

/-! ## FSET, FCLR, FTEST (R240, R241) -/

/-- The checks of FSET and FCLR (R243): the flag named is in range also where a group mask selects none. -/
def State.fsetChecks (s : State) (k c : Nat) (f : IBits) : List (Bool × Status) :=
  let fl := bits f 15 4
  [(decide (bits f 49 16 ≠ 0) || decide (bits f 3 0 ≠ 0) || (!bit f 55 && decide (bits f 54 50 ≠ 0)), 0x0902),
   (bit f 55 && decide (fl % 64 ≠ 0), 0x0903),
   (!s.flagOk k c fl, 0x0901)]

/-- FSET (R240, R243): one flag, or the flags of a group that RA selects. -/
def execFset (k : CoreId) (f : IBits) (s : State) : Out :=
  .next (s.issue k.val 0x60 f 6 [bits f 54 50] fun s c =>
    Issued.checked s (s.fsetChecks k.val c.val f) fun _ =>
      if bit f 55 then .done (s.setGroup k.val (bits f 15 4 / 64) (s.sreg k.val c.val (bits f 54 50)))
      else .done (s.setFlag k.val (bits f 15 4)))

/-- FCLR (R240, R243). -/
def execFclr (k : CoreId) (f : IBits) (s : State) : Out :=
  .next (s.issue k.val 0x61 f 6 [bits f 54 50] fun s c =>
    Issued.checked s (s.fsetChecks k.val c.val f) fun _ =>
      if bit f 55 then .done (s.clrGroup k.val (bits f 15 4 / 64) (s.sreg k.val c.val (bits f 54 50)))
      else .done (s.clrFlag k.val (bits f 15 4)))

/-- FTEST (R241, R243): RD takes the group, and with CLR the flags that read 1 are cleared. -/
def execFtest (k : CoreId) (f : IBits) (s : State) : Out :=
  .next (s.issue k.val 0x62 f 6 [fRD f] fun s c =>
    let fl := bits f 15 4
    Issued.checked s
      [(decide (bits f 49 16 ≠ 0) || decide (bits f 3 0 ≠ 0), 0x0902), (fl % 64 ≠ 0, 0x0903),
       (!s.groupOk k.val c.val (fl / 64), 0x0901)] fun _ =>
      let v := s.reg (R.FLG_STATE k.val (fl / 64))
      let s := s.setSreg k.val c.val (fRD f) v
      .done (if bit f 50 then s.clrGroup k.val (fl / 64) v else s))

/-! ## WAIT (R242 to R249) -/

/-- Slot `i` of a flag list word (R242). -/
def listFlag (w : Word64) (i : Nat) : Nat := bits w (16 * i + 11) (16 * i)

/-- Bits of a flag list word that must be zero for `nf` + 1 flags (R242, R243). -/
def listReserved (w : Word64) (nf : Nat) : Bool :=
  (List.range 4).any (fun i => decide (bits w (16 * i + 15) (16 * i + 12) ≠ 0) ||
    (decide (nf < i) && decide (listFlag w i ≠ 0)))

/-- MATCH of a wait against the flags as they stand (R245). -/
def State.waitMatch (s : State) (k : Nat) (w : FlagWait) : Nat :=
  ((List.range w.flags.length).filter (fun i => s.flag k (w.flags.getD i 0))).foldl (fun m i => m + 2 ^ i) 0

/-- Whether a wait's condition holds (R244). -/
def State.waitHolds (s : State) (k : Nat) (w : FlagWait) : Bool :=
  if w.all then w.flags.all (s.flag k) else w.flags.any (s.flag k)

/-- The result word of a decision now (R245). -/
def State.waitWord (s : State) (k c : Nat) (w : FlagWait) (timeout : Bool) : Word64 :=
  BitVec.ofNat 64 (s.viewNs (s.partOf k c) % 2 ^ 32 * 2 ^ 32 + timeout.toNat * 2 ^ 31 + s.waitMatch k w)

/-- The end of a wait in the running context (R245, R246): RD is written, and with CLR and SET the matched flags are
cleared. -/
def State.waitEnd (s : State) (k c : Nat) (w : FlagWait) (r : Word64) : State :=
  let s := s.setSreg k c w.rd r
  let s := if w.clr && !bit r 31 then
      ((List.range w.flags.length).filter (fun i => bit r i)).foldl (fun s i => s.clrFlag k (w.flags.getD i 0)) s
    else s
  ((s.modCtx k c (fun t => { t with wait := none })).setFld (R.FLG_WAIT k c) 63 63 0).setSeqState k c 1

/-- A wait is decided (R244, R247, R248): in the running context, whose clock was gated, it ends; in another the decision is
kept until it runs. -/
def State.waitDecide (s : State) (k c : Nat) (w : FlagWait) (timeout : Bool) : State :=
  let r := s.waitWord k c w timeout
  let s := if timeout then s.satInc (R.FLG_TMO_CNT k c) 31 0 else s
  if (s.core k).run.val = c then (if s.seqState k c = 3 then s.gated k else s).waitEnd k c w r
  else s.modCtx k c (fun t => { t with wait := some { w with result := some r } })

/-- FLG_WAIT_k while a context waits (R252). -/
def waitReg (w : FlagWait) : Word64 :=
  BitVec.ofNat 64 (2 ^ 63 + w.all.toNat * 2 ^ 62 + w.nf * 2 ^ 60 + w.flags.getD 3 0 * 2 ^ 48 + w.flags.getD 2 0 * 2 ^ 36 +
    w.flags.getD 1 0 * 2 ^ 24 + w.flags.getD 0 0 * 2 ^ 12)

/-- WAIT (R242 to R245): decided at once where the condition holds or the timeout is 0. -/
def execWait (k : CoreId) (f : IBits) (s : State) : Out :=
  .next (s.issue k.val 0x63 f 6 [fRD f, fRA f, fRB f] fun s c =>
    let rt := s.sreg k.val c.val (fRA f)
    let lw := s.sreg k.val c.val (fRB f)
    let nf := bits f 37 36
    let nt := bit f 38
    let fl := (List.range (nf + 1)).map (listFlag lw)
    Issued.checked s
      [(decide (bits f 35 0 ≠ 0) || (nt && decide (fRA f ≠ 0)) || listReserved lw nf || decide (bits rt 63 40 ≠ 0), 0x0902),
       (fl.any (fun n => !s.flagOk k.val c.val n), 0x0901)] fun _ =>
      let w : FlagWait :=
        ⟨bit f 40, bit f 39, nf, fl, fRD f, if nt then none else some (s.chorusNs + bits rt 39 0), none⟩
      if s.waitHolds k.val w then .done (s.waitDecide k.val c.val w false)
      else if !nt && decide (bits rt 39 0 = 0) then .done (s.waitDecide k.val c.val w true)
      else
        .done (((s.modCtx k.val c.val (fun t => { t with wait := some w })).setReg (R.FLG_WAIT k.val c.val)
          (waitReg w)).setSeqState k.val c.val 3))

/-- The wait of a context that is not decided yet. -/
def State.openWait (s : State) (k c : Nat) : Option FlagWait :=
  match (s.ctx k c).wait with
  | some w => if w.result = none then some w else none
  | none => none

/-- The core has observed a Chorus past a wait's deadline: its timeout CCLK lies behind (R244). -/
def State.waitPast (s : State) (w : FlagWait) : Bool :=
  match w.deadline with
  | some d => decide (d < s.chorusNs)
  | none => false

/-- WAIT_SET (R244, R245, R246, R248): the condition of a pending WAIT holds; past its deadline it has timed out. -/
def execWaitSet (k : CoreId) (c : CtxId) (s : State) : Out :=
  .next (match s.openWait k.val c.val with
    | some w => if s.waitHolds k.val w then s.waitDecide k.val c.val w (s.waitPast w) else s
    | none => s)

/-- WAIT_TIMEOUT (R244, R245): the deadline is observed; a condition that holds in that nanosecond goes first. -/
def execWaitTimeout (k : CoreId) (c : CtxId) (s : State) : Out :=
  .next (match s.openWait k.val c.val with
    | some w =>
      (match w.deadline with
       | some d =>
         if d ≤ s.chorusNs ∧ (s.waitHolds k.val w = false ∨ s.waitPast w = true) then s.waitDecide k.val c.val w true else s
       | none => s)
    | none => s)

end Sys2Proof.Machine
end

