-- ==== Sys2Proof/Machine/FrontEnd.lean ====
section
/-!
DEFINITION. Work submission (chapter 11): rings, doorbells, descriptors, dispatch, completion records, chains, and the
step barriers that launches wait for (R273 to R275).
-/

namespace Sys2Proof.Machine

/-! ## Rings (R280 to R282) -/

/-- A ring beside its registers. -/
def State.ring (s : State) (f r : Nat) : RingSt := Sparse.get (fun _ => RingSt.reset) s.fe.rings (8 * f + r)

/-- Change a ring. -/
def State.modRing (s : State) (f r : Nat) (g : RingSt → RingSt) : State :=
  (s.setFe { s.fe with rings := Sparse.set (fun _ => RingSt.reset) s.fe.rings (8 * f + r) (g (s.ring f r)) })

/-- STATE of a ring: 0 IDLE, 1 ACTIVE, 2 DRAINING, 3 STOPPED, 4 QUARANTINED. -/
def State.ringState (s : State) (f r : Nat) : Nat := s.fld (R.FE_RING_STAT f r) 31 29

/-- Set STATE. -/
def State.setRingState (s : State) (f r x : Nat) : State := s.setFld (R.FE_RING_STAT f r) 31 29 x

/-- Slots of the submission ring. -/
def State.sqSize (s : State) (f r : Nat) : Nat := 2 ^ s.fld (R.FE_RING_CFG f r) 4 0

/-- Slots of the completion ring. -/
def State.cqSize (s : State) (f r : Nat) : Nat := 2 ^ s.fld (R.FE_RING_CFG f r) 12 8

/-- Descriptors of a ring that have not completed. -/
def State.ringDescs (s : State) (f r : Nat) : List Desc := s.fe.descs.filter (fun d => d.func == f && d.ring == r)

/-- Change the descriptor with a serial number. -/
def State.modDesc (s : State) (id : Nat) (g : Desc → Desc) : State :=
  (s.setFe { s.fe with descs := s.fe.descs.map (fun d => if d.id = id then g d else d) })

/-- The descriptor with a serial number. -/
def State.desc (s : State) (id : Nat) : Option Desc := s.fe.descs.find? (fun d => d.id == id)

/-! ## Fields of a descriptor (R286 to R288) -/

def Desc.kind (d : Desc) : Nat := bits d.ctl 63 60
def Desc.lmode (d : Desc) : Nat := bits d.ctl 59 58
def Desc.fence (d : Desc) : Bool := bit d.ctl 57
def Desc.chain (d : Desc) : Bool := bit d.ctl 56
def Desc.barr (d : Desc) : Bool := bit d.ctl 55
def Desc.quiet (d : Desc) : Bool := bit d.ctl 54
def Desc.first (d : Desc) : Nat := bits d.ctl 53 44
def Desc.count (d : Desc) : Nat := bits d.ctl 43 34 + 1
def Desc.entryOff (d : Desc) : Nat := bits d.ctl 33 15 * 8
def Desc.succ (d : Desc) : Nat := bits d.ctl 14 0
def Desc.bgrp (d : Desc) : Nat := bits d.launch 37 32
def Desc.step (d : Desc) : Nat := bits d.launch 31 0

/-- The number that stands for the scheduler core's internal ring among the functions (R236). -/
def internalRing : Nat := 64

/-- The logical cores that a descriptor names in partition `p` (R404). -/
def State.descCores (s : State) (p : Nat) (d : Desc) : List Nat :=
  (List.range d.count).filterMap (fun i => s.partCore p (d.first + i))

/-- The logical cores that a descriptor names: those of its function's partition, or by chip logical id those of an internal
descriptor (R236). A MARKER names none (R287). -/
def State.namedCores (s : State) (d : Desc) : List Nat :=
  if d.kind ≠ 1 then []
  else if d.func = internalRing then (List.range d.count).map (· + d.first)
  else match s.partOfFunc d.func with
    | some p => s.descCores p d
    | none => []

/-- The step at which a descriptor arrives (R288). -/
def Desc.arrival (d : Desc) : Nat := if d.lmode = 2 then (d.step + 1) % 2 ^ 32 else d.step

/-! ## Completion records (R292, R293) -/

/-- CQFULL as the pointers give it: one free slot remains (R293). -/
def State.syncCqFull (s : State) (f r : Nat) : State :=
  let full := decide ((s.fld (R.FE_CQ_PTR f r) 15 0 + 1) % s.cqSize f r = (s.ring f r).cqHead)
  s.setFld (R.FE_RING_STAT f r) 2 2 full.toNat

/-- Write one record at TAIL with the current PHASE, and raise the ring's vector (R293). -/
def State.writeRecord (s : State) (f r : Nat) (b : List Byte) : State :=
  let a := R.FE_CQ_PTR f r
  let t := s.fld a 15 0
  let ph := s.fld a 16 16
  let b := b.set 4 (b.getD 4 0#8 ||| BitVec.ofNat 8 ph)
  let t2 := (t + 1) % s.cqSize f r
  let s : State := (s.setHostOut (s.hostOut ++ [(f, (s.reg (R.FE_CQ_BASE f r)).toNat + 32 * t, b)]))
  let s := (s.setFld a 15 0 t2).setFld a 16 16 (if t2 = 0 then 1 - ph else ph)
  let s := s.syncCqFull f r
  if s.bitOf (R.FE_RING_CFG f r) 30 then s else s.raiseMsix f r

/-- Write the records that are complete, oldest first, while the completion ring has room (R293). -/
def State.drainRecords (s : State) (f r : Nat) : Nat → State
  | 0 => s
  | fuel + 1 =>
    if s.bitOf (R.FE_RING_STAT f r) 2 then s
    else match (s.ring f r).held with
      | [] => s
      | b :: rest =>
        if b.wait.isSome then s
        else ((s.modRing f r (fun x => { x with held := rest })).writeRecord f r b.data).drainRecords f r fuel

/-- Write every record that can be written. -/
def State.flushRecords (s : State) (f r : Nat) : State := s.drainRecords f r (s.ring f r).held.length

/-- A ring that is DRAINING, or QUARANTINED and disabled, reaches IDLE when nothing of it is left (R282, R307). -/
def State.settleRing (s : State) (f r : Nat) : State :=
  let st := s.ringState f r
  let x := s.ring f r
  if (st = 2 ∨ (st = 4 ∧ s.bitOf (R.FE_RING_CFG f r) 31 = false)) ∧ s.ringDescs f r = [] ∧ x.chainRd = [] ∧ x.held = [] then
    s.setRingState f r 0
  else s

/-- A record joins those of its ring in completion order (R293): the internal ring's go to its own completion ring (R236). -/
def State.postRecord (s : State) (f r : Nat) (x : HeldRec) : State :=
  if f = internalRing then s.setFe { s.fe with internal := s.fe.internal ++ [x.data] }
  else ((s.modRing f r (fun y => { y with held := y.held ++ [x] })).flushRecords f r).settleRing f r

/-- A descriptor completes now: END is taken (R292). -/
def State.ended (s : State) (d : Desc) : Desc := { d with endNs := s.viewNs (s.partOfFunc d.func) }

/-- The record of a completed descriptor (R292), without PHASE. -/
def recordOf (d : Desc) (st : Status) (cut : Bool) (fidx : Option Nat) : List Byte :=
  let flags := 2 * d.late.toNat + 4 * d.chained.toNat + 8 * cut.toNat + 16 * fidx.isSome.toNat
  leBytes 2 st.toNat ++ leBytes 2 d.xstatus.toNat ++ leBytes 1 flags ++ leBytes 1 d.ring ++ leBytes 2 (fidx.getD 0) ++
    leBytes 4 d.didx ++ leBytes 4 0 ++ leBytes 8 (d.start.getD 0) ++ leBytes 8 d.endNs

/-- The record of a descriptor that completes now, unless QUIET leaves it out (R287, R294). -/
def State.reportDesc (s : State) (d : Desc) (st : Status) (cut : Bool) (fidx : Option Nat) : State :=
  if d.quiet && decide (st = 0) && !d.late && !cut then (if d.func = internalRing then s else s.settleRing d.func d.ring)
  else s.postRecord d.func d.ring ⟨none, false, recordOf (s.ended d) st cut fidx⟩

/-- The record of a descriptor whose successor is still to be read keeps its place in completion order (R293, R294). -/
def State.reportChain (s : State) (d : Desc) : State :=
  s.modRing d.func d.ring (fun x => { x with
    held := x.held ++ [⟨some d.id, d.quiet && !d.late, recordOf (s.ended d) 0 false none⟩] })

/-- What a record becomes once its successor has been read, or the chain cut (R294). -/
def HeldRec.resolve (x : HeldRec) (id : Nat) (cut : Bool) : Option HeldRec :=
  if x.wait = some id then
    if x.quiet && !cut then none
    else some { x with wait := none, data := if cut then x.data.set 4 (x.data.getD 4 0#8 ||| 8#8) else x.data }
  else some x

/-- The chain read of a descriptor has ended: its record goes on (R293, R294). -/
def State.resolveChain (s : State) (d : Desc) (cut : Bool) : State :=
  let s := s.modRing d.func d.ring (fun x => { x with
    held := x.held.filterMap (fun r => r.resolve d.id cut)
    chainRd := x.chainRd.filter (fun e => e.2.2.id ≠ d.id) })
  (s.flushRecords d.func d.ring).settleRing d.func d.ring

/-- Every chain read to come of a ring is cut (R294). -/
def State.cutChains (s : State) (f r : Nat) : State := (s.ring f r).chainRd.foldl (fun s e => s.resolveChain e.2.2 true) s

/-- A descriptor leaves the front end. -/
def State.dropDesc (s : State) (id : Nat) : State :=
  (s.setFe { s.fe with descs := s.fe.descs.filter (fun d => d.id ≠ id) })

/-- A descriptor completes with a status and starts no successor. -/
def State.endDesc (s : State) (d : Desc) (st : Status) (fidx : Option Nat) : State :=
  (s.dropDesc d.id).reportDesc d st d.chain fidx

/-- The starts that cores hold for a descriptor's target go (R259). -/
def State.dropTimed (s : State) (id : Nat) : State :=
  { s with cores := s.cores.map (fun e => (e.1, { e.2 with ctxs := e.2.ctxs.map (fun t =>
      (t.1, match t.2.timed with
        | some w => if w.kernel.desc = id then { t.2 with timed := none } else t.2
        | none => t.2)) })) }

/-- Every descriptor of a ring that has not started completes with a status, one whose start is held for its target
among them; chain reads to come are cut (R282, R294). -/
def State.cancelRing (s : State) (f r : Nat) (st : Status) : State :=
  let s := ((s.ringDescs f r).filter (fun d => !d.begun)).foldl (fun s d =>
    (if d.started then s.dropTimed d.id else s).endDesc d st none) s
  s.cutChains f r

/-- Write FE_RING_CFG_r (R282). -/
def State.wrRingCfg (s : State) (f r : Nat) (v : Word64) : State :=
  let a := R.FE_RING_CFG f r
  let old := s.reg a
  let en := bit old 31
  let new := bit v 31
  let st := s.ringState f r
  let logsBad := decide (bits v 12 8 < 4) || decide (bits v 12 8 > 16) || decide (bits v 4 0 < 4) || decide (bits v 4 0 > 16)
  let logsMove := decide (bits v 12 8 ≠ bits old 12 8) || decide (bits v 4 0 ≠ bits old 4 0)
  if logsBad || (en && logsMove) || (new && (s.partOfFunc f).isNone) || (!en && new && (st == 2 || st == 4)) then s.regErr a 0x0B14
  else
    let s := s.setReg a (setBits v 27 16 (bits old 27 16))
    if !en && new then
      let s := s.modRing f r (fun x => { x with tail := 0, cqHead := 0 })
      let s := ((s.setReg (R.FE_SQ_HEAD f r) 0).setReg (R.FE_CQ_PTR f r) 0x10000).setRingState f r 1
      s.syncCqFull f r
    else if en && !new && (st == 1 || st == 3) then ((s.setRingState f r 2).cancelRing f r 0x0B07).settleRing f r
    else s

/-- Write FE_SQ_BASE_r or FE_CQ_BASE_r (R282). -/
def State.wrRingBase (s : State) (f r a : Nat) (v : Word64) : State :=
  if bits v 11 0 ≠ 0 ∨ (s.bitOf (R.FE_RING_CFG f r) 31 ∧ s.reg a ≠ v) then s.regErr a 0x0B14 else s.setReg a v

/-- Whether every ring of a function is IDLE. -/
def State.ringsIdle (s : State) (f : Nat) : Bool := (List.range 8).all (fun r => s.ringState f r == 0)

/-- Write FE_CHAIN_BASE, FE_CHAIN_CFG, FE_FAULT_BASE or FE_FAULT_CFG (R295): `bad` says that the value breaks its range. -/
def State.wrFeFunc (s : State) (f a : Nat) (v : Word64) (bad : Bool) : State :=
  if bad || !s.ringsIdle f then s.regErr a 0x0B14 else s.setReg a v

/-! ## Doorbells (R283, R284) -/

/-- A doorbell value: an index in bits [15:0], every other bit of the write zero (R283). -/
def doorbellBad (size : Nat) (v : Word64) : Bool := decide (size < 2) || decide (bits v (8 * 2 ^ size - 1) 16 ≠ 0)

/-- A doorbell of function `f` comes after every posted write of it that waits (R215). -/
def State.door (s : State) (f : Nat) : State :=
  s.setFe { s.fe with doors := Sparse.set (fun _ => 0) s.fe.doors f s.fe.postedNo }

/-- The number of posted writes that came before a function's last doorbell. -/
def State.doorOf (s : State) (f : Nat) : Nat := Sparse.get (fun _ => 0) s.fe.doors f

/-- A posted write of a function from before mark `n` has not been performed (R215). -/
def State.postedBefore (s : State) (f n : Nat) : Bool := s.fe.posted.any (fun p => p.func == f && decide (p.order < n))

/-- A write of `2 ^ size` bytes at the submission tail doorbell of a ring (R284). -/
def State.subDoorbell (s : State) (f r size : Nat) (v : Word64) : State :=
  let i := bits v 15 0
  if doorbellBad size v ∨ i ≥ s.sqSize f r ∨ s.ringState f r ≠ 1 then s.setBitOf (R.FE_RING_STAT f r) 0
  else (s.modRing f r (fun x => { x with tail := i })).door f

/-- SUBMISSION_DOORBELL (R284). -/
def execSubmissionDoorbell (fn : FuncId) (r : Fin 8) (size : Fin 4) (v : Word64) (s : State) : Out :=
  .next (s.subDoorbell fn.val r.val size.val v)

/-- A write at the completion head doorbell of a ring (R284, R293): slots are freed and held records written. -/
def State.cplDoorbell (s : State) (f r size : Nat) (v : Word64) : State :=
  let i := bits v 15 0
  let n := s.cqSize f r
  let h := (s.ring f r).cqHead
  let t := s.fld (R.FE_CQ_PTR f r) 15 0
  if doorbellBad size v ∨ i ≥ n ∨ s.ringState f r = 0 ∨ (t + n - h) % n < (i + n - h) % n then
    s.setBitOf (R.FE_RING_STAT f r) 0
  else
    let s := (s.modRing f r (fun x => { x with cqHead := i })).syncCqFull f r
    (s.flushRecords f r).settleRing f r

/-- COMPLETION_DOORBELL (R284, R293). -/
def execCompletionDoorbell (fn : FuncId) (r : Fin 8) (size : Fin 4) (v : Word64) (s : State) : Out :=
  .next (s.cplDoorbell fn.val r.val size.val v)

/-- Entries that queue `q` holds (R296). -/
def State.queueCount (s : State) (f q : Nat) : Nat :=
  (s.fld (R.FE_Q_PTR f q) 31 16 + 65536 - s.fld (R.FE_Q_PTR f q) 15 0) % 65536

/-- A write at the tail doorbell of a device queue (R284, R296): the tail advances to the slot index written, by fewer than
2^LOG entries. -/
def State.queueDoorbell (s : State) (f q size : Nat) (v : Word64) : State :=
  let cfg := R.FE_Q_CFG f q
  let n := 2 ^ s.fld cfg 3 0
  let t := s.fld (R.FE_Q_PTR f q) 31 16
  let i := bits v 15 0
  let d := (i + n - t % n) % n
  if size ≠ 2 ∨ doorbellBad 2 v ∨ i ≥ n ∨ s.bitOf cfg 31 = false ∨ s.bitOf cfg 30 ∨ s.queueCount f q + d > n then
    s.setBitOf cfg 29
  else (s.setFld (R.FE_Q_PTR f q) 31 16 (t + d)).door f

/-- QUEUE_DOORBELL (R284, R296). -/
def execQueueDoorbell (fn : FuncId) (q : BitVec 8) (size : Fin 4) (v : Word64) (s : State) : Out :=
  .next (s.queueDoorbell fn.val q.toNat size.val v)

/-! ## Step barriers (R273, R274) -/

/-- A member of a group's list: generation code and chip id (R360). -/
def State.lfMember (s : State) (area half i : Nat) : Nat × Nat :=
  let a := area + half * 32768 + 2 * i
  let w := (s.hbmReadByte a).toNat + 256 * (s.hbmReadByte (a + 1)).toNat
  (natBits w 15 14, natBits w 13 0)

/-- The members of group `g` as its live entry lists them, by rank. -/
def State.lfMembers (s : State) (g : Nat) : List (Nat × Nat) :=
  (List.range (s.fld (R.LF_GRP g 0) 55 42 + 1)).map
    (s.lfMember (s.fld (R.LF_GRP g 3) 47 16 * 0x10000) (s.fld (R.LF_GRP g 3) 0 0))

/-- Whether a group is configured for step-barrier mode (R289 check 8, R359, R372). -/
def State.barGroup (s : State) (g : Nat) : Bool := s.bitOf (R.LF_GRP g 0) 57

/-- The barrier root: the MX3 member with the lowest chip id (R273). -/
def State.barRoot (s : State) (g : Nat) : Option Nat :=
  ((s.lfMembers g).filter (fun m => m.1 == 3)).foldl (fun (b : Option Nat) m => match b with
    | none => some m.2
    | some x => some (min x m.2)) none

/-- The root of the Chorus tree that this chip is in (R262): the one its parent's beacons name, or itself. -/
def State.treeRoot (s : State) : Nat := if s.fld R.CHR_CFG 31 30 = 3 then s.chr.root else s.chipId

/-- A completion notice reaches this chip (R274): the descriptors that wait for the step start at L where the chip is
LOCKED in the barrier root's tree, and now where it is not. -/
def State.barNotice (s : State) (g step inst tree : Nat) : State :=
  let s := if s.fld (R.CHR_STEP g) 63 32 < step then s.setFld (R.CHR_STEP g) 63 32 step else s
  let timed := decide (s.chrState = 2) && s.treeRoot == tree
  let t := inst * 256
  let now := s.chorus.toNat
  (s.setFe { s.fe with descs := s.fe.descs.map (fun d =>
      if d.lmode = 2 ∧ d.ready = false ∧ d.bgrp = g ∧ d.step ≤ step then
        if timed then { d with ready := true, target := some (BitVec.ofNat 72 t), late := d.late || decide (t < now) }
        else { d with ready := true }
      else d) })

/-- A member arrives at the barrier root (R273): when every member has arrived at a step, it is complete. -/
def State.rootArrive (s : State) (g member step : Nat) : State :=
  let s := s.modChr (fun c => { c with arrivals :=
    (g, member, step) :: c.arrivals.filter (fun e => !(e.1 == g && e.2.1 == member)) })
  let last : Nat → Nat := fun m => ((s.chr.arrivals.find? (fun e => e.1 == g && e.2.1 == m)).map (fun e => e.2.2)).getD 0
  let ms := (s.lfMembers g).map (fun m => m.2)
  let done := s.fld (R.CHR_STEP g) 63 32
  if ms.all (fun m => decide (done < last m)) then
    let n := done + 1
    let inst := s.chorusNs + s.fld R.CHR_BARRIER_CFG 15 0
    let others := ms.filter (· ≠ s.chipId)
    let s := s.modChr (fun c => { c with notices := (g, n, inst) :: c.notices.filter (fun e => e.1 ≠ g) })
    ((s.setNet (s.net ++ others.map (fun m => Packet.ctl 2 m [g, n, inst, s.treeRoot]))) : State).barNotice g n inst s.treeRoot
  else s

/-- The chip arrives at a step (R273). -/
def State.arrive (s : State) (g step : Nat) : State :=
  let s := (s.setFld (R.CHR_STEP g) 31 0 step).modChr (fun c => { c with arrAt := (g, step, s.ns) :: c.arrAt })
  match s.barRoot g with
  | some m => if m = s.chipId then s.rootArrive g m step else (s.setNet (s.net ++ [.ctl 1 m [g, s.chipId, step]]))
  | none => s

/-- ARRIVAL_MESSAGE (R273): a member's arrival reaches the barrier root. On another chip it comes from an older neighbour,
whose form the port converts, and goes on to the root. -/
def execArrivalMessage (g : GroupId) (member : BitVec 14) (step : BitVec 32) (s : State) : Out :=
  .next (if s.barGroup g.val ∧ (s.lfMembers g.val).any (fun m => m.2 == member.toNat) then
      match s.barRoot g.val with
      | some m =>
        if m = s.chipId then
          (s.taken (.ctl 1 s.chipId [g.val, member.toNat, step.toNat])).rootArrive g.val member.toNat step.toNat
        else if (s.lfMembers g.val).any (fun x => x.2 == member.toNat && x.1 != 3) then
          s.setNet (s.net ++ [.ctl 1 m [g.val, member.toNat, step.toNat]])
        else s
      | none => s
    else s)

/-- BARRIER_NOTICE (R274): `tree` is the root of the barrier root's Chorus tree. -/
def execBarrierNotice (g : GroupId) (step : BitVec 32) (launch : BarrierLaunch) (s : State) : Out :=
  .next (if s.barGroup g.val then
      (s.taken (.ctl 2 s.chipId [g.val, step.toNat, launch.inst.toNat, launch.tree.toNat])).barNotice g.val step.toNat
        launch.inst.toNat launch.tree.toNat
    else s)

/-! ## Fetch and checks (R285, R288, R289) -/

/-- The launch target of a descriptor (R288), in chip Chorus, 1/256 ns. -/
def State.descTarget (s : State) (p : Nat) (launch : Word64) : Nat :=
  let now := s.viewNs (some p)
  let d := signed 48 ((bits launch 63 16 + 2 ^ 48 - now % 2 ^ 48) % 2 ^ 48)
  s.fromView (some p) ((now : Int) + d) * 256 + bits launch 15 8

/-- The launch target of an internal descriptor: chip Chorus is its view (R288). -/
def State.fullTarget (s : State) (launch : Word64) : Nat :=
  let now := s.chorusNs
  let d := signed 48 ((bits launch 63 16 + 2 ^ 48 - now % 2 ^ 48) % 2 ^ 48)
  ((now : Int) + d).toNat * 256 + bits launch 15 8

/-- The first failing check of a descriptor (R289). -/
def State.descChecks (s : State) (p : Nat) (d : Desc) : Option Status :=
  let f := d.func
  let kernel := decide (d.kind = 1)
  let marker := decide (d.kind = 2)
  let bw := d.lmode == 2 || d.barr
  let reserved := (marker && (decide (bits d.ctl 53 15 ≠ 0) || d.args.any (fun a => a ≠ 0))) ||
    (!d.chain && decide (d.succ ≠ 0)) ||
    (decide (d.lmode = 0) && !d.barr && decide (d.launch ≠ 0)) || (decide (d.lmode = 1) && decide (bits d.launch 7 0 ≠ 0)) ||
    (bw && decide (bits d.launch 63 38 ≠ 0))
  firstOf
    [(!kernel && !marker, 0x0B01), (reserved, 0x0B02), (d.lmode == 3 || (d.barr && d.lmode == 1), 0x0B03),
     (kernel && decide (d.first + d.count > s.fld (R.MMU_PCFG p) 53 44), 0x0B04),
     (kernel && (s.descCores p d).any (fun k => (s.phys k).isNone), 0x0011),
     (d.chain && (decide (s.fld (R.FE_CHAIN_CFG f) 3 0 = 0) || decide (2 ^ s.fld (R.FE_CHAIN_CFG f) 3 0 ≤ d.succ)), 0x0B06),
     (d.lmode == 1 && decide (s.chorus.toNat + 2 ^ 40 * 256 < s.descTarget p d.launch), 0x0A01),
     (bw && !s.barGroup d.bgrp, 0x0B05)]

/-- A descriptor as its 64 bytes spell it (R286). -/
def descOf (b : List Byte) (id f r didx order : Nat) (chained : Bool) : Desc :=
  let w (i : Nat) : Word64 := BitVec.ofNat 64 (leAt b (8 * i) 8)
  { id := id, func := f, ring := r, ctl := w 0, launch := w 1, args := [w 2, w 3, w 4, w 5, w 6, w 7], didx := didx,
    chained := chained, order := order, started := false, left := [], start := none, endNs := 0, late := false, target := none,
    ready := false, status := 0, xstatus := 0, raw := slice b 0 64, begun := false, hold := [], after := 0 }

/-- The launch condition of a checked descriptor with target `t` as it stands at fetch (R259, R274). -/
def State.armAt (s : State) (t : Nat) (d : Desc) : Desc :=
  match d.lmode with
  | 1 =>
    { d with ready := true, target := some (BitVec.ofNat 72 t), late := decide (t ≤ s.chorus.toNat) }
  | 2 => if d.step ≤ s.fld (R.CHR_STEP d.bgrp) 63 32 then { d with ready := true, late := true } else d
  | _ => { d with ready := true }

/-- The launch condition of a checked descriptor of partition `p`. -/
def State.armDesc (s : State) (p : Nat) (d : Desc) : Desc := s.armAt (s.descTarget p d.launch) d

/-- The launch condition of a checked internal descriptor. -/
def State.armInternal (s : State) (d : Desc) : Desc := s.armAt (s.fullTarget d.launch) d

/-- Take a checked descriptor in. -/
def State.addDesc (s : State) (p : Nat) (d : Desc) : State :=
  (s.setFe { s.fe with descs := s.fe.descs ++ [s.armDesc p d], nextId := s.fe.nextId + 1 })

/-- DESCRIPTOR_FETCH (R285, R289). -/
def execDescriptorFetch (fn : FuncId) (r : Fin 8) (res : HostRead) (s : State) : Out :=
  .next (
    let f := fn.val
    let h := s.fld (R.FE_SQ_HEAD f r.val) 15 0
    let waiting := ((s.ringDescs f r.val).filter (fun d => !d.chained && !d.begun)).length
    match s.partOfFunc f with
    | none => s
    | some p =>
      if s.ringState f r.val ≠ 1 ∨ h = (s.ring f r.val).tail ∨ waiting ≥ 16 then s
      else
        let order := (s.ring f r.val).fetched
        let s := s.modRing f r.val (fun x => { x with fetched := order + 1 })
        match res with
        | .error =>
          (((s.setBitOf (R.FE_RING_STAT f r.val) 1).setRingState f r.val 3).cutChains f r.val).reportDesc
            (descOf [] s.fe.nextId f r.val h order false) 0x0B0D false none
        | .bytes b =>
          let s := s.setFld (R.FE_SQ_HEAD f r.val) 15 0 ((h + 1) % s.sqSize f r.val)
          let d := { descOf b s.fe.nextId f r.val h order false with after := s.doorOf f }
          match s.descChecks p d with
          | some st => s.reportDesc d st d.chain none
          | none => s.addDesc p d)

/-! ## Dispatch (R152, R290, R259, R260) -/

/-- The state of a context at the start of a kernel (R152, R82, R118, R214): the core's read buffer is emptied, and where the
context runs the held buffers and vector registers. A firmware kernel, which has no partition, finds the core's logical id of the
chip in s7 and 1 in s8: DESIGN CHOICE, log entry 95. -/
def State.startKernel (s : State) (k : Nat) (c : CtxId) (kn : Kernel) (entry : Nat) (args : List Word64) : State :=
  let own := match kn.part with
    | some p => [BitVec.ofNat 64 (s.coreNumber p k), BitVec.ofNat 64 ((s.partCores p).filter (fun j => (s.phys j).isSome)).length]
    | none => [BitVec.ofNat 64 k, 1]
  let regs := ((List.range 9).drop 1).zip (args.take 6 ++ List.replicate (6 - args.length) 0 ++ own)
  let s := s.modCtx k c.val (fun t => { t with
    s := regs.foldl (fun m (x : Nat × Word64) => Sparse.set (fun _ => (0 : Word64)) m x.1 x.2) []
    busy := [], counts := [], launch := none, wait := none, bask := none, fault := none
    credits := t.credits.map (fun w => { w with dead := true })
    kernel := some kn, timed := none, disc := ⟨[], [], []⟩ })
  let s := s.modCore k (fun x => { (if x.run = c then x.emptyHeld.zeroVregs else x) with rbuf := [] })
  (s.setPc k c.val entry).setSeqState k c.val 1

/-- The fetch buffer is emptied, and the row of an entry offset read (R152). -/
def State.entryRow (s : State) (k : Nat) (c : CtxId) (entry : Nat) : State :=
  (s.modCtx k c.val (fun t => { t with rows := [] })).fetchRow k c (entry / 64)

/-- The kernel of a descriptor has started on a core, no longer held for its target. -/
def State.beginDesc (s : State) (id : Nat) : State := s.modDesc id (fun d => { d with begun := true })

/-- Whether a descriptor's FENCE is met (R287, R294). -/
def State.fenceMet (s : State) (d : Desc) : Bool :=
  !d.fence || ((s.ringDescs d.func d.ring).all (fun e => decide (d.order ≤ e.order)) &&
    (s.ring d.func d.ring).chainRd.all (fun e => decide (d.order ≤ e.1)))

/-- Whether core `k` is IDLE in context `c` and holds no start (R290). -/
def State.coreIdle (s : State) (k c : Nat) : Bool :=
  s.seqState k c == 0 && (s.ctx k c).timed.isNone && (s.ctx k c).kernel.isNone

/-- Whether an earlier descriptor or chain of the ring keeps a descriptor from starting (R290, R294): an unstarted one that
names one of its cores, and a chain whose running or last step named one, until its successor has started. -/
def State.heldBack (s : State) (d : Desc) : Bool :=
  let mine := s.namedCores d
  let meets (l : List Nat) : Bool := l.any (fun k => mine.contains k)
  (s.ringDescs d.func d.ring).any (fun e => decide (e.order < d.order) &&
      (if e.started then e.chain && meets (s.namedCores e) else meets (s.namedCores e) || meets e.hold)) ||
    (s.ring d.func d.ring).chainRd.any (fun e => decide (e.1 < d.order) && meets (s.namedCores e.2.2))

/-- Whether a fetched descriptor may start now: its ring ACTIVE, or for one that began no chain STOPPED by a failed fetch after
it, and not full (R293), FENCE and launch condition met, and the posted writes before its doorbell performed (R215). -/
def State.mayStart (s : State) (d : Desc) : Bool :=
  (s.ringState d.func d.ring == 1 || (s.ringState d.func d.ring == 3 && !d.chained)) &&
    !s.bitOf (R.FE_RING_STAT d.func d.ring) 2 && s.fenceMet d && d.ready && !d.started && !s.postedBefore d.func d.after

/-- The kernel that a descriptor starts, its dispatch stamped with EPOCH (R302). -/
def State.kernelOf (s : State) (p : Option Nat) (d : Desc) (late : Bool) : Kernel := ⟨d.id, p.isNone, p, s.epochOf p, false, late⟩

/-- Dispatch a descriptor to context `c` of one core: it starts, or holds its start for the target, the entry's row read while
it waits (R152, R259). A context that does not run when its target has come starts late (R260). -/
def State.dispatchCore (s : State) (p : Option Nat) (c : CtxId) (d : Desc) (k : Nat) : State :=
  let go (late : Bool) : State :=
    ((s.startKernel k c (s.kernelOf p d late) d.entryOff d.args).entryRow k c d.entryOff).beginDesc d.id
  match d.target with
  | some t =>
    if s.chorus < t then
      (s.modCtx k c.val (fun x => { x with timed := some ⟨t, false, s.kernelOf p d false, d.entryOff, d.args⟩ })).entryRow k c
        d.entryOff
    else go (decide ((s.core k).run ≠ c))
  | none => go false

/-- A descriptor goes to every core that it names (R290); one that is late already is counted (R260). -/
def State.dispatch (s : State) (p : Option Nat) (c : CtxId) (d : Desc) (cores : List Nat) : State :=
  let late := d.late || (match d.target with | some t => decide (t.toNat + 0x200 < s.chorus.toNat) | none => false)
  let s := s.modDesc d.id (fun e => { e with started := true, left := cores, late := late })
  let s := if late then s.satInc R.CHR_LATE_CNT 31 0 else s
  cores.foldl (fun s k => s.dispatchCore p c d k) s

/-- The position of a core retires, so no new kernel starts there (R496 step 3). -/
def State.coreRetires (s : State) (k : Nat) : Bool :=
  match s.phys k with
  | some p => s.sys.retire.any (fun e => e.pos == p && e.begun)
  | none => false

/-- A fetched kernel goes to every core that it names, once the conditions of R290 hold and none of them retires. -/
def State.dispatchFetched (s : State) (d : Desc) : State :=
  match s.partOfFunc d.func with
  | none => s
  | some p =>
    let c : CtxId := (BitVec.ofNat 2 (s.fld (R.MMU_PCFG p) 61 60)).toFin
    let cores := s.descCores p d
    if d.kind ≠ 1 ∨ s.mayStart d = false ∨ cores.all (fun k => s.coreIdle k c.val) = false ∨ s.heldBack d = true ∨
        cores.any s.coreRetires = true ∨ (s.part p).quar.isSome then s
    else s.dispatch (some p) c d cores

/-- The first failing check of an internal descriptor (R236, R289): FIRST and NCM1 count chip logical ids, and the internal
ring has no chain table. -/
def State.internalChecks (s : State) (d : Desc) : Option Status :=
  let reserved := (!d.chain && decide (d.succ ≠ 0)) || (decide (d.lmode = 0) && !d.barr && decide (d.launch ≠ 0)) ||
    (decide (d.lmode = 1) && decide (bits d.launch 7 0 ≠ 0)) || ((d.lmode == 2 || d.barr) && decide (bits d.launch 63 38 ≠ 0))
  firstOf
    [(decide (d.kind ≠ 1), 0x0B01), (reserved, 0x0B02), (d.lmode == 3 || (d.barr && d.lmode == 1), 0x0B03),
     (decide (s.variant.cores < d.first + d.count), 0x0B04), ((s.namedCores d).any (fun k => (s.phys k).isNone), 0x0011),
     (d.chain, 0x0B06), (d.lmode == 1 && decide (s.chorus.toNat + 2 ^ 40 * 256 < s.fullTarget d.launch), 0x0A01),
     ((d.lmode == 2 || d.barr) && !s.barGroup d.bgrp, 0x0B05)]

/-- The resident context in which a firmware kernel can start: the lowest that no partition holds and that is IDLE on every
core named (R236). -/
def State.freeCtx (s : State) (cores : List Nat) : Option CtxId :=
  (List.finRange 4).find? (fun c => cores.all (fun k => (s.partOf k c.val).isNone && s.coreIdle k c.val && !s.coreRetires k))

/-- A descriptor of the internal ring (R236): it fails its checks, starts, or stays in the ring until it can. -/
def State.dispatchInternal (s : State) (b : List Byte) : State :=
  let d := Machine.descOf b s.fe.nextId internalRing 0 0 s.fe.nextId false
  match s.internalChecks d with
  | some st => s.reportDesc d st false none
  | none =>
    let d := s.armInternal d
    match s.freeCtx (s.namedCores d) with
    | some c =>
      if d.ready then
        (s.setFe { s.fe with descs := s.fe.descs ++ [d], nextId := s.fe.nextId + 1 }).dispatch none c d (s.namedCores d)
      else s
    | none => s

/-- KERNEL_DISPATCH (R236, R290). -/
def execKernelDispatch (d : DescSrc) (s : State) : Out :=
  .next (match d with
    | .fetched id => (match s.desc id.toNat with | some d => s.dispatchFetched d | none => s)
    | .internal b => s.dispatchInternal b)

/-- The ring that a kernel belongs to cannot start it, because its completion ring is full (R293). -/
def State.ringFull (s : State) (kn : Kernel) : Bool :=
  match s.desc kn.desc with
  | some d => d.func != internalRing && s.bitOf (R.FE_RING_STAT d.func d.ring) 2
  | none => false

/-- TIMED_START (R259, R260, R293): a held start reaches its target in the running context; the row read while it waited
stays. Its lateness is seen at the first issue. -/
def execTimedStart (k : CoreId) (c : CtxId) (s : State) : Out :=
  .next (match (s.ctx k.val c.val).timed with
    | none => s
    | some t =>
      if t.target ≤ s.chorus ∧ (s.core k.val).run = c ∧ s.ringFull t.kernel = false ∧ s.relocks (s.coreDie k.val) = false then
        (s.startKernel k.val c { t.kernel with late := t.late } t.entry t.args).beginDesc t.kernel.desc
      else s)

/-! ## Completion and chains (R291, R294) -/

/-- A descriptor that has run to its end: it arrives at its barrier, and completes or waits for its chain read. -/
def State.finishDesc (s : State) (d : Desc) : State :=
  let n := d.arrival
  let bad := d.barr && decide (n ≠ (s.fld (R.CHR_STEP d.bgrp) 31 0 + 1) % 2 ^ 32)
  if bad then s.endDesc d 0x0A09 none
  else
    let s := if d.barr then s.arrive d.bgrp n else s
    if d.chain then
      if s.ringState d.func d.ring = 1 then
        ((s.dropDesc d.id).modRing d.func d.ring (fun x => { x with chainRd := x.chainRd ++ [(d.order, d.succ, d)] })).reportChain d
      else (s.dropDesc d.id).reportDesc d 0 true none
    else (s.dropDesc d.id).reportDesc d 0 false none

/-- A fault of a kernel of an internal descriptor: no partition holds its context, so there is no quarantine (R236). -/
def State.internalFault (s : State) (d : Desc) : Option Status :=
  (d.left.flatMap (fun k => (List.range 4).filterMap (fun c =>
    match (s.ctx k c).kernel, (s.ctx k c).fault with
    | some kn, some m => if kn.desc = d.id ∧ s.seqState k c = 6 then some m.status else none
    | _, _ => none))).head?

/-- The contexts that run a descriptor's kernel end it. -/
def State.clearKernels (s : State) (d : Desc) : State :=
  d.left.foldl (fun s k => (List.range 4).foldl (fun s c =>
    match (s.ctx k c).kernel with
    | some kn => if kn.desc = d.id then
        (s.modCtx k c (fun t => { t with kernel := none, wait := none, bask := none, launch := none, fault := none })).setSeqState k c 0
      else s
    | none => s) s) s

/-- DESCRIPTOR_COMPLETE (R236, R291): every core of a kernel has completed, a MARKER's conditions are met, or a firmware
kernel has faulted. -/
def execDescriptorComplete (id : BitVec 64) (s : State) : Out :=
  .next (match s.desc id.toNat with
    | none => s
    | some d =>
      if d.func = internalRing then
        match s.internalFault d with
        | some st => (s.clearKernels d).endDesc d st none
        | none => if d.left = [] then s.finishDesc d else s
      else if d.kind = 1 then (if d.started ∧ d.left = [] ∧ (s.ringState d.func d.ring ≠ 4) then s.finishDesc d else s)
      else
        let due := match d.target with | some t => decide (t ≤ s.chorus) | none => true
        if s.mayStart d && due then
          let s := if d.late then s.satInc R.CHR_LATE_CNT 31 0 else s
          s.finishDesc d
        else s)

/-- The front end's own fault: its partition is to be quarantined (R307). -/
def State.feFault (s : State) (p : Nat) (d : Desc) (st : Status) (addr : Nat) : State :=
  if (s.part p).quar.isSome then s
  else
    let cause : Cause :=
      { slot := none, unit := 7, status := st, core := 0, ctx := s.fld (R.MMU_PCFG p) 61 60, coin := false, pc := 0, code := 0, uop := 0xFF,
        instr := 0, addr := addr, time := s.viewNs (some p), desc := some d }
    s.modPart p (fun x => { x with quar := some cause })

/-- Read 64 bytes of a partition's HBM space as the front end (R415). -/
def State.feRead (s : State) (p va : Nat) : State × List TByte × Status :=
  if va + 64 > winBase then (s.mmuFault p va 1 0x0101, [], 0x0101)
  else
    let (s, ps, st) := s.translate .fe 1 p va 64 false
    if st ≠ 0 then (s, [], st)
    else
      let st := s.piecesAccess (.fw 2) ps
      if st ≠ 0 then (s, [], st) else s.piecesRead ps

/-- CHAIN_READ (R294): the successor is read from its table entry, checked and taken in, or the chain is cut. -/
def execChainRead (fn : FuncId) (r : Fin 8) (s : State) : Out :=
  .next (
    let f := fn.val
    match (s.ring f r.val).chainRd, s.partOfFunc f with
    | (order, succ, pred) :: _, some p =>
      if s.ringState f r.val ≠ 1 then s
      else
        let va := (s.reg (R.FE_CHAIN_BASE f)).toNat + 64 * succ
        let (s, b, st) := s.feRead p va
        let d := { descOf (clean b) s.fe.nextId f r.val succ order true with hold := s.namedCores pred }
        if st ≠ 0 then
          let d := descOf [] s.fe.nextId f r.val succ order true
          ((s.resolveChain pred true).feFault p d st va).addDesc p { d with started := true, status := st }
        else match s.descChecks p d with
          | some e => (s.resolveChain pred true).reportDesc d e d.chain none
          | none => (s.resolveChain pred false).addDesc p d
    | _, _ => s)

end Sys2Proof.Machine
end

