-- ==== Sys2Proof/Machine/Queues.lean ====
section
/-!
DEFINITION. Device queues and basking tasks (R296 to R301), and late messages (R302, R303).
-/

namespace Sys2Proof.Machine

/-! ## Queue registers (R296) -/

/-- The result word of BASK and QPOST (R297). -/
def queueWord (st : Status) (timeout : Bool) (i : Nat) : Word64 :=
  BitVec.ofNat 64 (st.toNat * 2 ^ 48 + timeout.toNat * 2 ^ 31 + i % 65536)

/-- The end of a BASK in the running context: RD takes its result and the context runs (R299). -/
def State.baskEnd (s : State) (k c : Nat) (w : BaskWait) (r : Word64) : State :=
  ((s.setSreg k c w.rd r).modCtx k c (fun t => { t with bask := none })).setSeqState k c 1

/-- A BASK has its result without an entry; a context that is not running keeps it until it runs (R248, R299). -/
def State.baskDecide (s : State) (k c : Nat) (w : BaskWait) (r : Word64) : State :=
  if (s.core k).run.val = c then (s.gated k).baskEnd k c w r
  else s.modCtx k c (fun t => { t with bask := some { w with result := some r } })

/-- The open waits on queue `q` of function `f`: no entry assigned, no result. -/
def State.baskOpen (s : State) (f q k c : Nat) : Option BaskWait :=
  match (s.ctx k c).bask with
  | some w => if w.func = f ∧ w.queue = q ∧ w.entry = none ∧ w.result = none then some w else none
  | none => none

/-- Every core and context. -/
def State.allCtxs (s : State) : List (Nat × Nat) :=
  s.cores.flatMap (fun e => (List.range 4).map (fun c => (e.1, c)))

/-- The first waiter of a queue in the order in which the BASKs issued (R299). -/
def State.firstWaiter (s : State) (f q : Nat) : Option (Nat × Nat × BaskWait) :=
  (s.allCtxs.filterMap (fun x => (s.baskOpen f q x.1 x.2).map (fun w => (x.1, x.2, w)))).foldl
    (fun (m : Option (Nat × Nat × BaskWait)) x => match m with
      | none => some x
      | some y => if x.2.2.order < y.2.2.order then some x else some y) none

/-- Write FE_Q_CFG_q (R296). -/
def State.wrQCfg (s : State) (f q : Nat) (v : Word64) : State :=
  let a := R.FE_Q_CFG f q
  let old := s.reg a
  let moved := decide (bits v 3 0 ≠ bits old 3 0) || (bit v 30 != bit old 30)
  if bits v 3 0 < 4 ∨ 12 < bits v 3 0 ∨ (bit old 31 = true ∧ moved = true) then s.regErr a 0x0B14
  else
    let s := s.setReg a (setBit v 29 (bit old 29 && !bit v 29))
    let s : State := if bit old 31 != bit v 31 then
        s.setFe { s.fe with returned := s.fe.returned.filter (fun r => !(r.func == f && r.queue == q)) }
      else s
    if !bit old 31 && bit v 31 then s.setReg (R.FE_Q_PTR f q) 0
    else if bit old 31 && !bit v 31 then
      s.allCtxs.foldl (fun s x => match s.baskOpen f q x.1 x.2 with
        | some w => s.baskDecide x.1 x.2 w (queueWord 0 true 0)
        | none => s) s
    else s

/-- Write FE_Q_BASE_q (R296). -/
def State.wrQBase (s : State) (f q : Nat) (v : Word64) : State :=
  let a := R.FE_Q_BASE f q
  if bits v 5 0 ≠ 0 ∨ (s.bitOf (R.FE_Q_CFG f q) 31 ∧ s.reg a ≠ v) then s.regErr a 0x0B14 else s.setReg a v

/-! ## BASK and QPOST (R297 to R300) -/

/-- The function of a context's partition. -/
def State.funcOf (s : State) (k c : Nat) : Option Nat := (s.partOf k c).map (fun p => s.fld (R.MMU_PCFG p) 59 54)

/-- QID. -/
def qId (f : IBits) : Nat := bits f 39 32

/-- The checks 2 to 5 of R298. -/
def State.queueChecks (s : State) (k c : Nat) (f : IBits) (off : Nat) (post : Bool) : List (Bool × Status) :=
  let cfg (i : Nat) : Bool := match s.funcOf k c with
    | some fn => s.bitOf (R.FE_Q_CFG fn (qId f)) i
    | none => false
  [(!cfg 31, 0x0B08), (post && !cfg 30, 0x0B0B), (decide (off % 64 ≠ 0), 0x0B13), (decide (padSize < off + 64), 0x0101),
   (!s.owns k c off 64, 0x0102)]

/-- BASK (R297 to R299): the context waits; the front end delivers an entry, if one is there at once, to the first waiter. -/
def execBask (k : CoreId) (f : IBits) (s : State) : Out :=
  .next (s.issue k.val 0x90 f 1 [fRD f, fRA f, fRB f] fun s c =>
    let rt := s.sreg k.val c.val (fRA f)
    let rb := s.sreg k.val c.val (fRB f)
    let nt := bit f 40
    Issued.checked s
      ([(decide (bits f 31 0 ≠ 0) || (nt && decide (fRA f ≠ 0)) || decide (bits rt 63 40 ≠ 0) || decide (bits rb 63 22 ≠ 0), 0x0B10)] ++
        s.queueChecks k.val c.val f (bits rb 21 0) false) fun _ =>
      let w : BaskWait :=
        { epoch := s.epochOf (s.partOf k.val c.val), func := (s.funcOf k.val c.val).getD 0, queue := qId f, rd := fRD f, off := bits rb 21 0
          deadline := if nt then none else some (s.chorusNs + bits rt 39 0)
          entry := none, result := none, order := s.fe.baskNo }
      let s : State := (s.setFe { s.fe with baskNo := s.fe.baskNo + 1 })
      .done ((s.modCtx k.val c.val (fun t => { t with bask := some w })).setSeqState k.val c.val 3))

/-- The address of the slot of entry `n` of a queue. -/
def State.queueSlot (s : State) (f q n : Nat) : Nat :=
  (s.reg (R.FE_Q_BASE f q)).toNat + 64 * (n % 2 ^ s.fld (R.FE_Q_CFG f q) 3 0)

/-- Deliver an entry to the running context of core `k` (R299): the read buffer is emptied, the entry written, and RD takes
the status and the index. -/
def State.deliver (s : State) (k : Nat) (c : CtxId) (w : BaskWait) (e : QueueEntry) : State :=
  let s := s.modCore k (fun x => { x with rbuf := [] })
  let (s, ws) := s.rowWrite k c.val w.off e.data
  s.baskEnd k c.val w (queueWord (orStatus e.status ws) false e.index)

/-- The next entry of a queue leaves it (R299): one that has come back, oldest first, else entry HEAD, read from its slot. -/
def State.takeEntry (s : State) (p f q : Nat) : State × QueueEntry :=
  match s.fe.returned.find? (fun r => r.func == f && r.queue == q) with
  | some r => (s.setFe { s.fe with returned := s.fe.returned.erase r }, r.entry)
  | none =>
    let n := s.fld (R.FE_Q_PTR f q) 15 0
    let s := s.setFld (R.FE_Q_PTR f q) 15 0 (n + 1)
    let (s, d, st) := s.feRead p (s.queueSlot f q n)
    (s, ⟨n, d, st⟩)

/-- A queue has an entry to give. -/
def State.queueHas (s : State) (f q : Nat) : Bool :=
  decide (s.queueCount f q ≠ 0) || s.fe.returned.any (fun r => r.func == f && r.queue == q)

/-- BASK_DELIVERY (R215, R299): the first waiter takes the next entry; a context that is not running has it held. None is
delivered before the posted writes that came before the doorbell (R300). -/
def execBaskDelivery (fn : FuncId) (q : BitVec 8) (s : State) : Out :=
  .next (
    let f := fn.val
    match s.partOfFunc f with
    | none => s
    | some p =>
      if s.bitOf (R.FE_Q_CFG f q.toNat) 31 = false ∨ s.queueHas f q.toNat = false ∨ (s.part p).quar.isSome ∨
          s.postedBefore f (s.doorOf f) = true then s
      else match s.firstWaiter f q.toNat with
        | none => s
        | some (k, c, w) =>
          let (s, e) := s.takeEntry p f q.toNat
          let run := (s.core k).run
          if run.val = c then (s.gated k).deliver k run w e
          else s.modCtx k c (fun t => { t with bask := some { w with entry := some e } }))

/-- BASK_TIMEOUT (R299, R301): the deadline passes before an entry is assigned; an entry that is there goes first. -/
def execBaskTimeout (k : CoreId) (c : CtxId) (s : State) : Out :=
  .next (match (s.ctx k.val c.val).bask with
    | none => s
    | some w =>
      let first := match s.firstWaiter w.func w.queue with
        | some (j, d, _) => decide (j = k.val) && decide (d = c.val)
        | none => false
      let past := match w.deadline with | some d => decide (d ≤ s.chorusNs) | none => false
      if w.entry = none ∧ w.result = none ∧ past = true ∧ (first && s.queueHas w.func w.queue) = false then
        s.baskDecide k.val c.val w (queueWord 0 true 0)
      else s)

/-- Write bytes to a partition's HBM space as the front end (R415): nothing moves before every page has translated. -/
def State.feWrite (s : State) (p va : Nat) (d : List TByte) : State × Status :=
  if va + d.length > winBase then (s.mmuFault p va 1 0x0101, 0x0101)
  else
    let (s, ps, st) := s.translate .fe 1 p va d.length true
    if st ≠ 0 then (s, st)
    else if s.piecesAccess (.fw 2) ps ≠ 0 then (s, s.piecesAccess (.fw 2) ps)
    else s.piecesWrite d ps

/-- QPOST (R297, R298, R300): one entry is posted, or the queue is full. -/
def execQpost (k : CoreId) (f : IBits) (s : State) : Out :=
  .next (s.issue k.val 0x91 f 1 [fRD f, fRB f] fun s c =>
    let rb := s.sreg k.val c.val (fRB f)
    let off := bits rb 21 0
    Issued.checked s
      ([(decide (bits f 31 0 ≠ 0) || bit f 40 || decide (fRA f ≠ 0) || decide (bits rb 63 22 ≠ 0), 0x0B10)] ++
        s.queueChecks k.val c.val f off true) fun _ =>
      let fn := (s.funcOf k.val c.val).getD 0
      let q := qId f
      let t := s.fld (R.FE_Q_PTR fn q) 31 16
      if s.queueCount fn q ≥ 2 ^ s.fld (R.FE_Q_CFG fn q) 3 0 then
        .done (s.setSreg k.val c.val (fRD f) (queueWord 0x0B09 false 0))
      else
        let (s, d, st) := s.padRead k.val off 64
        let (s, ws) := s.feWrite ((s.partOf k.val c.val).getD 0) (s.queueSlot fn q t) d
        let s := if ws = 0 then s.setFld (R.FE_Q_PTR fn q) 31 16 (t + 1) else s
        .done (s.setSreg k.val c.val (fRD f) (queueWord (orStatus st ws) false t)))

/-! ## Late messages (R302, R303) -/

/-- LATE_MESSAGE (R303): an item stamped with another EPOCH is dropped, counted and logged, and never applied. -/
def execLateMessage (m : Stamped) (s : State) : Out :=
  .next (
    let now := (s.part m.part.val).epoch
    if m.epoch = now then s
    else
      let core := match m.core with | some k => k.val | none => 0xFFFF
      s.dropLate m.func.val core m.kind m.ident m.epoch now)

end Sys2Proof.Machine
end

