-- ==== Sys2Proof/Machine/Quarantine.lean ====
section
/-!
DEFINITION. Fault capture, quarantine and the partition-scope reset (R302 to R308).
-/

namespace Sys2Proof.Machine

/-! ## Records (R304 to R306) -/

/-- The cause record (R305): `n` records are written. -/
def State.causeRec (s : State) (p : Nat) (q : Cause) (trunc : Bool) (n : Nat) : List Byte :=
  let d := match q.desc with
    | some d => leBytes 1 d.ring ++ leBytes 1 d.chained.toNat ++ leBytes 2 d.didx ++ leBytes 2 p ++ leBytes 2 0 ++ slice d.raw 0 64
    | none => leBytes 4 0 ++ leBytes 2 p
  slice (leBytes 1 1 ++ leBytes 1 q.unit ++ leBytes 2 q.status.toNat ++ leBytes 2 q.core ++ leBytes 1 q.ctx ++
    leBytes 1 ((s.part p).epoch.toNat + 16 * trunc.toNat + 32 * q.coin.toNat) ++ leBytes 4 q.pc ++ leBytes 2 q.code ++
    leBytes 1 q.uop ++ leBytes 1 n ++ leBytes 8 q.instr.toNat ++ leBytes 8 q.addr ++ leBytes 8 q.time ++ d) 0 256

/-- The core record of core `k` (R306). -/
def State.coreRec (s : State) (p k c : Nat) : List Byte :=
  leBytes 1 2 ++ leBytes 1 0 ++ leBytes 2 (s.coreNumber p k) ++ leBytes 4 (s.pc k c) ++
    ((List.range 32).drop 1).flatMap (fun i => leBytes 8 (s.sreg k c i).toNat)

/-- PCs of four bytes each, `n` of them. -/
def pcBytes (n : Nat) (pcs : List Nat) : List Byte := slice ((pcs.take n).flatMap (leBytes 4)) 0 (4 * n)

/-- PCs of the matrix instructions discarded or stopped, in program order. -/
def CoreState.stoppedMa (x : CoreState) (c : Nat) : List Nat :=
  (x.mq.filter (fun e => e.ctx.val = c)).map (fun e => e.pc) ++ (x.ctx c).disc.ma

/-- PCs of the vector instructions discarded or stopped. -/
def CoreState.stoppedVe (x : CoreState) (c : Nat) : List Nat :=
  (x.vq.filter (fun e => e.ctx.val = c)).map (fun e => e.pc) ++ (x.ctx c).disc.ve

/-- PCs of the transfers cut. -/
def CoreState.stoppedDma (x : CoreState) (c : Nat) : List Nat :=
  (x.dq.filter (fun e => e.ctx.val = c)).map (fun e => e.pc) ++ (x.ctx c).disc.dma

/-- The engine record of core `k` (R306). -/
def State.engineRec (s : State) (p k c : Nat) : List Byte :=
  let x := s.core k
  let ma := x.stoppedMa c
  let ve := x.stoppedVe c
  let dma := x.stoppedDma c
  slice (leBytes 1 3 ++ leBytes 1 (s.seqState k c) ++ leBytes 2 (s.coreNumber p k) ++ leBytes 1 ma.length ++ leBytes 1 ve.length ++
    leBytes 1 dma.length ++ leBytes 1 0 ++ leBytes 4 (s.reg (R.MA_EXC k c)).toNat ++ leBytes 4 (s.reg (R.VE_XFLAGS k c)).toNat ++
    leBytes 8 (s.reg (R.FLG_WAIT k c)).toNat ++ leBytes 8 (s.reg (R.SP_XFER_ERR k c)).toNat ++ pcBytes 8 ma ++ pcBytes 8 ve ++
    pcBytes 16 dma ++ pcBytes 1 (ve.drop 8)) 0 256

/-- The cores of a partition that run a kernel of it, in increasing logical id (R304). -/
def State.affected (s : State) (p c : Nat) : List Nat :=
  (s.partCores p).filter (fun k => match (s.ctx k c).kernel with
    | some kn => kn.part == some p
    | none => false)

/-- Translate the fault slots listed: their pieces, and the first failure (R304, R415). -/
def State.slotPieces (s : State) (p f : Nat) : List Nat → State × List (List (Nat × Nat)) × Status
  | [] => (s, [], 0)
  | i :: r =>
    let va := (s.reg (R.FE_FAULT_BASE f)).toNat + 256 * i
    if va + 256 > winBase then (s.mmuFault p va 1 0x0101, [], 0x0101)
    else
      let (s, ps, st) := s.translate .fe 1 p va 256 true
      if st ≠ 0 then (s, [], st)
      else
        let x := s.slotPieces p f r
        (x.1, ps :: x.2.1, x.2.2)

/-- Write the fault records of a quarantine (R304): the index of the cause record, where records were written. -/
def State.writeFault (s : State) (p f c : Nat) (q : Cause) : State × Option Nat :=
  let log := s.fld (R.FE_FAULT_CFG f) 3 0
  let size := 2 ^ log
  let tail := s.fld (R.FE_FAULT_PTR f) 15 0
  let free := (s.fld (R.FE_FAULT_PTR f) 31 16 + 2 * size - tail % size - 1) % size
  if log = 0 ∨ free = 0 then (s, none)
  else
    let cores := s.affected p c
    let all := 1 + 2 * cores.length
    let trunc := decide (free < all)
    let n := if trunc then 1 else all
    let recs := s.causeRec p q trunc n :: (if trunc then [] else cores.flatMap (fun k => [s.coreRec p k c, s.engineRec p k c]))
    let (s, ps, st) := s.slotPieces p f ((List.range n).map (fun i => (tail + i) % size))
    if st ≠ 0 then (s, none)
    else
      let s := (ps.zip recs).foldl (fun s x => (s.piecesWrite (carried x.2) x.1).1) s
      (s.setFld (R.FE_FAULT_PTR f) 15 0 ((tail + n) % size), some tail)

/-! ## Partition-scope reset (R308) -/

/-- Every grant that a context of core `k` has as a source on this chip is revoked (R198). -/
def State.revokeCtx (s : State) (k : Nat) (c : CtxId) : State := if h : k < 800 then s.revokeFrom ⟨k, h⟩ c else s

/-- The reset of one resident context (R308). -/
def State.ctxReset (s : State) (k : Nat) (c : CtxId) : State :=
  let segs := (List.range 48).filter (fun g => s.segOwner k g = some c.val)
  let st := s.seqState k c.val
  let s := if (st = 3 ∨ st = 4) ∧ (s.core k).run = c then s.gated k else s
  let s := segs.foldl (fun s g =>
    (s.endGrants k (fun x => x.used && overlaps x.first x.count (16 * g) 16)).setUnits k (16 * g) 16 (fun _ => .idle)) s
  let s := ((s.revokeCtx k c).flushGroups k c.val).clrGroups k (groupsOf (s.reg (R.FLG_CTX k c.val)))
  let s := ((s.closeTiles k c).setReg (R.MA_EXC k c.val) 0).setReg (R.VE_XFLAGS k c.val) 0
  let mask := s.fld (R.VE_CTX k c.val) 7 0
  let s := s.modCore k (fun x =>
    let x := { x with
      slots := x.slots.filter (fun e => !mask.testBit e.1)
      fresh := x.fresh.filter (fun f => f.ctx ≠ c)
      mq := x.mq.filter (fun e => e.ctx ≠ c), vq := x.vq.filter (fun e => e.ctx ≠ c), dq := x.dq.filter (fun e => e.ctx ≠ c) }
    if x.run = c then { x.emptyHeld with rbuf := [] } else x)
  let s := (segs.foldl (fun s g => s.invalidateSeg k g) s).dropBask k c.val
  let s := s.modCtx k c.val (fun t => { t with
    watches := [], rows := [], busy := [], counts := [], launch := none, wait := none, fault := none
    credits := t.credits.map (fun w => { w with dead := true })
    kernel := none, timed := none, disc := ⟨[], [], []⟩ })
  (s.setSeqState k c.val 0).setFld (R.FLG_WAIT k c.val) 63 63 0

/-- A context number. -/
def ctxId (c : Nat) : CtxId := if h : c < 4 then ⟨c, h⟩ else 0

/-- EPOCH advances, and the rings of the function show it (R302, R308). -/
def State.advanceEpoch (s : State) (p f : Nat) : State :=
  let e := (s.part p).epoch + 1
  (List.range 8).foldl (fun s r => s.setFld (R.FE_RING_CFG f r) 27 24 e.toNat) (s.modPart p (fun x => { x with epoch := e }))

/-- The partition-scope reset (R308). -/
def State.partReset (s : State) (p : Nat) : State :=
  let c := ctxId (s.fld (R.MMU_PCFG p) 61 60)
  ((s.partCores p).foldl (fun s k => s.ctxReset k c) s).advanceEpoch p (s.fld (R.MMU_PCFG p) 59 54)

/-! ## Quarantine (R307) -/

/-- Step 6 of R307 for one ring: EN falls, every descriptor and chain of it gets its record, and it settles in IDLE. -/
def State.closeRing (s : State) (f r : Nat) (q : Cause) (fidx : Option Nat) : State :=
  let mine (d : Desc) : Bool := match q.desc with | some e => e.id == d.id | none => false
  let s := s.setFld (R.FE_RING_CFG f r) 31 31 0
  let s := (s.ringDescs f r).foldl (fun s d => if mine d then s.endDesc d q.status fidx else s.endDesc d 0x0B0C none) s
  (s.cutChains f r).settleRing f r

/-- QUARANTINE (R307): the partition with a reported fault stops, its records are written, it is reset, its descriptors get
their records and its function its notice. -/
def execQuarantine (p : PartId) (s : State) : Out :=
  .next (match (s.part p.val).quar with
    | none => s
    | some q =>
      let f := s.fld (R.MMU_PCFG p.val) 59 54
      let c := s.fld (R.MMU_PCFG p.val) 61 60
      let s := (List.range 8).foldl (fun s r => s.setRingState f r 4) s
      let (s, fidx) := s.writeFault p.val f c q
      let s := (s.partReset p.val).modPart p.val (fun x => { x with quar := none })
      let s := (List.range 8).foldl (fun s r => s.closeRing f r q fidx) s
      s.notice f 6 q.status (leBytes 2 p.val ++ leBytes 2 q.status.toNat ++ leBytes 2 (fidx.getD 0)) none)

end Sys2Proof.Machine
end

