-- ==== Sys2Proof/Machine/Commands.lean ====
section
/-!
DEFINITION. Mailboxes, acknowledge entries, the life of a Grenug command (R434 to R441, R445), and the commands that
chapter 16 itself defines.
-/

namespace Sys2Proof.Machine

/-! ## Mailbox (R437, R439, R453) -/

/-- Whether a function is enabled (R400). -/
def State.enabled (s : State) (f : Nat) : Bool := decide (f ≤ s.fw.numVfs)

/-- The scheduler core is in RUN (R453 FW_READY). -/
def State.fwReady (s : State) : Bool := s.procState schedProc == 2

/-- Byte `o` of a function's page, from 0x400. -/
def State.pageAt (s : State) (f o n : Nat) : List Byte := Sparse.getList (fun _ => 0#8) (s.fn f).page o n

/-- A write of `2 ^ size` bytes to MBX_POST (R439): a post of 8 bytes waits for firmware; another width sets BADPOST; a full
mailbox drops the post. -/
def State.mbxPost (s : State) (f size : Nat) (v : Word64) : State :=
  if s.enabled f = false then s
  else if size ≠ 3 then s.setBitOf (R.MBX_STAT f) 1
  else if (s.fn f).posts.length ≥ 4 then (s.setBitOf (R.MBX_STAT f) 0).modFn f (fun x => { x with aer := true })
  else s.modFn f (fun x => { x with posts := x.posts ++ [v] })

/-- MBX_POST (R439). -/
def execMbxPost (fn : FuncId) (size : Fin 4) (v : Word64) (s : State) : Out := .next (s.mbxPost fn.val size.val v)

/-- An acknowledge entry (R453). -/
def ackEntry (slot : Nat) (tag : Nat) (rc : Status) : BitVec 32 :=
  BitVec.ofNat 32 (2 ^ 31 + slot % 32 * 2 ^ 24 + tag % 256 * 2 ^ 16 + rc.toNat)

/-- Put an acknowledge entry into a function's FIFO. -/
def State.pushAck (s : State) (f slot tag : Nat) (rc : Status) : State :=
  s.modFn f (fun x => { x with acks := x.acks ++ [ackEntry slot tag rc] })

/-- MBX_ACK_READ (R453): the oldest entry leaves and is returned; an empty FIFO returns zero. -/
def execMbxAckRead (fn : FuncId) (s : State) : Out :=
  .next (
    let e := if s.enabled fn.val then (s.fn fn.val).acks.headD 0 else 0
    let s := if s.enabled fn.val then s.modFn fn.val (fun x => { x with acks := x.acks.drop 1 }) else s
    (s.setCpls (s.cpls ++ [(fn.val, .data (leBytes 4 e.toNat))])))

/-- The effect of a write of MBX_NR_HEAD (R444, R453, R15). -/
def State.wrNrHead (s : State) (f : Nat) (v : BitVec 32) : State :=
  let h := s.fld (R.MBX_NR_HEAD f) 4 0
  let x := bits v 4 0
  if s.enabled f = false then s
  else if bits v 31 5 ≠ 0 then s.regErr (R.MBX_NR_HEAD f) 0x0012
  else if (x + 32 - h) % 32 ≤ s.nrCount f then (s.setFld (R.MBX_NR_HEAD f) 4 0 x).nrDrain f 34
  else s.setBitOf (R.MBX_STAT f) 2

/-- MBX_NR_HEAD_WRITE (R444): freed slots take held notices; a value outside the notices written sets HEADERR. -/
def execMbxNrHeadWrite (fn : FuncId) (v : BitVec 32) (s : State) : Out := .next (s.wrNrHead fn.val v)

/-! ## Taking a notice (R440) -/

/-- The argument size of a command code, and whether the PF alone may issue it; `none` for a reserved code (R438). A
PARTITION_CREATE's size follows its NEXT field (R408). -/
def codeInfo (code : Nat) (next : Nat) : Option (List Nat × Bool) :=
  match code with
  | 0x01 => some ([0], false)
  | 0x10 => some ([32], false)
  | 0x20 => some ([32], false)
  | 0x21 => some (if 1 ≤ next ∧ next ≤ 8 then [64 + 16 * next] else (List.range 9).map (fun n => 64 + 16 * n), false)
  | 0x22 => some ([16], false)
  | 0x30 => some ([16], true)
  | 0x31 => some ([0], true)
  | 0x40 => some ([16], true)
  | 0x50 => some ([16], true)
  | 0x51 => some ([0], true)
  | 0x52 => some ([8], true)
  | 0x53 => some ([0], true)
  | 0x54 => some ([0], true)
  | 0x60 => some ([16], true)
  | 0x61 => some ([24], true)
  | 0x62 => some ([8], true)
  | 0x63 => some ([0], true)
  | _ => none

/-- Orders 2 to 5 of R440 for the message in slot `i`. -/
def State.msgStatus (s : State) (f i : Nat) : Status :=
  let m := s.pageAt f (0x400 + 64 * i) 64
  let nslot := leAt m 3 1
  let len := leAt m 4 2
  let next := leAt (s.pageAt f (0x400 + 64 * (i + 1)) 64) 0x0B 1
  if leAt m 6 1 ≠ 0 ∨ leAt m 7 1 ≠ 0 ∨ leAt m 8 8 ≠ 0 ∨ leAt m 0x30 16 ≠ 0 then 0x1002
  else
    match codeInfo (leAt m 0 2) next with
    | none => 0x1003
    | some (sizes, pf) =>
      if nslot < 1 ∨ 4 < nslot ∨ 16 < i + nslot ∨ 192 < len ∨ 64 * (nslot - 1) < len ∨ !sizes.contains len then 0x1004
      else if pf ∧ f ≠ 0 then 0x1005
      else 0

/-- Reject the command in slot `i` of a function (R440). -/
def State.cmdReject (s : State) (f i tag : Nat) (st : Status) (reply : List Byte) : State :=
  let s := (s.msgReply f i reply 3).pushAck f i tag st
  (s.setFw { s.fw with journal := s.fw.journal.eraseP (fun (j : Journal) => j.func == f && j.slot == i && !j.acc) })

/-- Accept the command in slot `i` of a function (R440). -/
def State.cmdAccept (s : State) (f i tag : Nat) : State :=
  let s := (s.modFn f (fun x => { x with page := Sparse.set (fun _ => 0#8) x.page (0x400 + 64 * i + 7) 1#8 })).pushAck f i tag 0
  let js := modifyFirst (fun (j : Journal) => j.func == f && j.slot == i && !j.acc) (fun j => { j with acc := true, done := false }) s.fw.journal
  (s.setFw { s.fw with journal := js })

/-- Commands of a function that are outstanding (R445). -/
def State.outstanding (s : State) (f : Nat) : List Journal := s.fw.journal.filter (fun (j : Journal) => j.func == f)

/-- Whether firmware may take a notice of a function (R440, R445). -/
def State.mayTake (s : State) (f : Nat) : Bool :=
  s.fwReady && s.enabled f && (s.fn f).posts ≠ [] && decide ((s.outstanding f).length < 16) &&
    decide ((s.fn f).acks.length + ((s.outstanding f).filter (fun (j : Journal) => !j.acc)).length < 16)

/-- The function whose notice firmware takes next, in rotating order from the last one (R440). -/
def State.nextTake (s : State) : Option Nat := ((List.range 64).map (fun i => (s.fw.turn + 1 + i) % 64)).find? (fun f => s.mayTake f)

/-- MBX_TAKE (R440), in the function's turn: the notice leaves the mailbox and the message is read; the checks of orders 1 to 5 reject it, or it
waits for the command's own checks. -/
def execMbxTake (fn : FuncId) (s : State) : Out :=
  .next (
    let f := fn.val
    match (s.fn f).posts with
    | [] => s
    | p :: r =>
      if s.nextTake ≠ some f then s
      else
        let s : State := (s.modFn f (fun x => { x with posts := r }))
        let s : State := s.setFw { s.fw with turn := f }
        let i := (p.toNat - 0x5400) / 64
        if p.toNat < 0x5400 ∨ (p.toNat - 0x5400) % 64 ≠ 0 ∨ 16 ≤ i then s.pushAck f 0x1F 0 0x1001
        else
          let m := s.pageAt f (0x400 + 64 * i) 64
          let tag := leAt m 2 1
          let st := s.msgStatus f i
          if st ≠ 0 then s.cmdReject f i tag st (replyStatus st)
          else
            let args := s.pageAt f (0x440 + 64 * i) (leAt m 4 2)
            (s.setFw { s.fw with journal := s.fw.journal ++ [⟨f, i, tag, leAt m 0 2, false, false, args⟩] }))

/-! ## The run of a command after its take -/

/-- What a command's own checks answer: a rejection, an acceptance that completes later, or one that is complete. -/
inductive CmdOut where
  | reject (s : State) (st : Status) (reply : List Byte)
  | accept (s : State)
  | done (s : State) (reply : List Byte)

/-- Run a command (R440 order 6, R441). The issuer's message must have been taken and its scheduler core run; the TAG
and the arguments are those the take read. A firmware processor's own command has no message, no acknowledge entry and
no notice. -/
def State.cmdRun (s : State) (code : Nat) (cmd : Cmd)
    (body : State → Nat → Option Nat → Nat → List Byte → CmdOut) : Out :=
  let f := cmd.func.val
  .next (match cmd.slot with
    | none =>
      match body s f none cmd.tag.toNat cmd.args with
      | .reject s _ _ => s
      | .accept s => s
      | .done s _ => s
    | some i =>
      match s.fw.journal.find? (fun (j : Journal) => j.func == f && j.slot == i.val && !j.acc && j.code == code) with
      | none => s
      | some j =>
        if s.fwReady = false then s
        else
          match body s f (some j.slot) j.tag j.args with
          | .reject s st reply => s.cmdReject f j.slot j.tag st reply
          | .accept s => s.cmdAccept f j.slot j.tag
          | .done s reply => (s.cmdAccept f j.slot j.tag).cmdDone f (some j.slot) j.tag code reply)

/-- A rejection whose REPLY is the status alone. -/
def CmdOut.refuse (s : State) (st : Status) : CmdOut := .reject s st (replyStatus st)

/-! ## The commands of chapter 16 (R438, R450 to R452) -/

/-- NOP_COMMAND (R438). -/
def execNopCommand (cmd : Cmd) (s : State) : Out := s.cmdRun 0x01 cmd (fun s _ _ _ _ => .done s (replyStatus 0))

/-- Whether byte `i` of a list is not zero within [o, o+n): a reserved field that is set. -/
def setIn (args : List Byte) (o n : Nat) : Bool := decide (leAt args o n ≠ 0)

/-- A log record's DATA field widths (R447): addresses and Chorus values take 8 bytes at 8-byte alignment, everything
else 2. A record of an address and a status starts with the address. -/
def logWidths (code : Nat) : List Nat :=
  match code with
  | 0x0007 => [8, 2]
  | _ => []

/-- The DATA bytes of a record. -/
def logData : List Nat → List Nat → List Byte
  | [], _ => []
  | x :: r, [] => leBytes 2 x ++ logData r []
  | x :: r, w :: ws => leBytes w x ++ logData r ws

/-- The 64 bytes of a log record (R447). -/
def LogRec.bytes (r : LogRec) : List Byte :=
  leBytes 8 r.time ++ leBytes 4 r.seq ++ leBytes 1 r.proc ++ leBytes 1 (r.data.headD 0) ++ leBytes 2 r.code ++
    slice (logData (r.data.drop 1) (logWidths r.code)) 0 48

/-- Bytes written to host memory. -/
def State.hostWrite (s : State) (f a : Nat) (b : List Byte) : State :=
  if b = [] then s else (s.setHostOut (s.hostOut ++ [(f, a, b)]))

/-- LOG_READ (R450); `lost` says that the host address completes with UR or CA. -/
def execLogRead (cmd : HostCmd) (s : State) : Out :=
  s.cmdRun 0x60 cmd.cmd (fun s f _ _ a =>
    let first := leAt a 0 4
    let count := leAt a 4 4
    let host := leAt a 8 8
    if count < 1 ∨ 16384 < count ∨ host % 64 ≠ 0 then .refuse s 0x1008
    else if cmd.lost then .done s (replyStatus 0x100C)
    else
      let recs := (s.fw.log.reverse.filter (fun r => decide (first ≤ r.seq))).take count
      let w := match recs with
        | r :: _ => r.seq
        | [] => (Config.freeWord s.free).toNat
      .done ((s.takeFree).hostWrite f host (recs.flatMap LogRec.bytes))
        (leBytes 2 0 ++ leBytes 2 0 ++ leBytes 4 w ++ leBytes 4 recs.length ++ leBytes 4 (s.fw.logSeq + 1)))

/-- TRACE_SET (R450). -/
def execTraceSet (cmd : Cmd) (s : State) : Out :=
  s.cmdRun 0x62 cmd (fun s _ _ _ a =>
    let lo := leAt a 0 2
    let hi := leAt a 2 2
    let en := leAt a 4 1
    if setIn a 5 3 then .refuse s 0x1002
    else if hi < lo ∨ 0x3FFF < hi ∨ 1 < en then .refuse s 0x1008
    else
      let tr := s.fw.traces.filter (fun e => decide (e.1 < lo) || decide (hi < e.1))
      let add := if en = 1 then (List.range (hi + 1 - lo)).map (fun i => (lo + i, true)) else []
      let tr := tr.filter (fun e => decide (e.1 < lo)) ++ add ++ tr.filter (fun e => decide (lo ≤ e.1))
      .done (s.setFw { s.fw with traces := tr }) (replyStatus 0))

/-- Byte `o` of the crash dump: its header, the copy of the log ring behind the processors' sections, and what else the sections
hold (R451). -/
def Dump.byte (d : Dump) (o : Nat) : Byte :=
  let h := leBytes 4 0x33444D58 ++ leBytes 1 d.kind ++ leBytes 1 d.cause ++ leBytes 1 d.read.toNat ++
    leBytes 1 d.prevLost.toNat ++ leBytes 8 d.time ++ leBytes 4 d.len ++ leBytes 4 d.trunc.toNat ++ leBytes 4 d.logSeq ++
    leBytes 4 0 ++ slice d.fwid 0 32
  let l := 64 + 35 * 262144
  if o < 64 then h.getD o 0
  else if l ≤ o ∧ (o - l) / 64 < d.logs.length then
    (match d.logs[(o - l) / 64]? with
    | some r => r.bytes.getD ((o - l) % 64) 0
    | none => 0)
  else Config.dumpByte d.time o

/-- DUMP_READ (R450, R451): READ is set when the read covers the dump's last byte; `lost` says that the host address completes
with UR or CA. -/
def execDumpRead (cmd : HostCmd) (s : State) : Out :=
  s.cmdRun 0x61 cmd.cmd (fun s f _ _ a =>
    let off := leAt a 0 8
    let len := leAt a 8 4
    let host := leAt a 0x10 8
    let d := s.fw.dump
    if setIn a 0xC 4 then .refuse s 0x1002
    else if off % 64 ≠ 0 ∨ len % 64 ≠ 0 ∨ len < 64 ∨ 2 ^ 24 < len ∨ host % 64 ≠ 0 then .refuse s 0x1008
    else if d.kind = 0 then .done s (replyStatus 0x100B)
    else if d.len < off + len then .refuse s 0x1008
    else if cmd.lost then .done s (replyStatus 0x100C)
    else
      let s := s.hostWrite f host ((List.range len).map (fun i => d.byte (off + i)))
      .done (if off + len = d.len then (s.setFw { s.fw with dump := { d with read := true } }) else s) (replyStatus 0))

/-- DUMP_CLEAR (R450, R452). -/
def execDumpClear (cmd : Cmd) (s : State) : Out :=
  s.cmdRun 0x63 cmd (fun s _ _ _ _ =>
    if s.fw.dump.kind = 0 then .done s (replyStatus 0x100B)
    else .done (s.setFw { s.fw with dump := { s.fw.dump with kind := 0 } }) (replyStatus 0))

/-- A processor's internal mailbox (R436). -/
def State.mbox (s : State) (i : Nat) : List (List Byte) := Sparse.get (fun _ => []) s.fw.mboxes i

/-- INTERNAL_MAILBOX_POST (R436): depth 8; a post to a full mailbox is discarded and its writer receives GS_1006. -/
def execInternalMailboxPost (src dst : ProcId) (msg : List Byte) (s : State) : Out :=
  let m := s.mbox dst.val
  let bus (s : State) (st : Status) : State := (s.setFw { s.fw with bus := Sparse.set (fun _ => 0) s.fw.bus src.val st })
  .next (
    if 8 ≤ m.length then bus s 0x1006
    else bus (s.setFw { s.fw with mboxes := Sparse.set (fun _ => []) s.fw.mboxes dst.val (m ++ [msg]) }) 0)

/-- The SPDM request codes that R446 supports: GET_VERSION, GET_CAPABILITIES, NEGOTIATE_ALGORITHMS, GET_DIGESTS,
GET_CERTIFICATE, CHALLENGE, GET_MEASUREMENTS. PRESUMED: the numbers are the SPDM standard's. -/
def spdmKnown : List Nat := [0x84, 0xE1, 0xE3, 0x81, 0x82, 0x83, 0xE0]

/-- The header of the answer to an SPDM request: the version of the request, the response code (the request code less
0x80), and for any other request ERROR with UnsupportedRequest (R446). -/
def spdmAnswer (req : List Byte) : List Byte :=
  let c := leAt req 1 1
  if c ∈ spdmKnown then leBytes 1 (leAt req 0 1) ++ leBytes 1 (c - 0x80)
  else leBytes 1 (leAt req 0 1) ++ leBytes 1 0x7F ++ leBytes 1 0x07 ++ leBytes 1 c

/-- SPDM_REQUEST (R446): the security core, in RUN, answers. -/
def execSpdmRequest (req : List Byte) (s : State) : Out :=
  .next (
    if s.procState 0 ≠ 2 then s
    else (s.setFw { s.fw with spdm := s.fw.spdm + 1, spdmOut := spdmAnswer req :: s.fw.spdmOut }))

end Sys2Proof.Machine
end

