-- ==== Sys2Proof/Machine/Hbm.lean ====
section
/-!
DEFINITION. The HBM controllers, FILL, the buckets, the scrubbers, repair and offline stacks (R378 to R393).
-/

namespace Sys2Proof.Machine

/-! ## Controllers (R383, R384) -/

/-- Something happens to the stored symbols of a block that has been written (R381, R382). -/
def State.upsetBlock (s : State) (b : Nat) (u : Upset) : State :=
  let r := Code.hbm.decode u s.free
  if s.hbmWrote b then
    ((s.setHbm { s.hbm with
        errs := Sparse.set (fun _ => Err.ok) s.hbm.errs b r.1
        bytes := if r.2 then
            Sparse.setList (hbmDefault s.variant s.hbm) s.hbm.bytes (64 * b)
              ((List.range 64).map (fun i => Config.upsetByte (64 * b + i) s.free))
          else s.hbm.bytes }) : State).takeFree
  else s

/-- Block `i` of a read meets what a list says of its stored symbols. -/
def State.upsetBlocks (s : State) (a : Nat) (errs : List (Fin 4 × Upset)) : State :=
  errs.foldl (fun s x => s.upsetBlock (a / 64 + x.1.val) x.2) s

/-- The controller of address `a` holds 128 requests (R379). -/
def State.hbmFull (s : State) (a : Nat) : Bool :=
  let pc := (hbmMap s.variant a).2
  decide (128 ≤ (s.hbm.queue.filter (fun x => decide (x.1 = pc) && decide (s.ns < x.2))).length)

/-- A request to `n` bytes at `a` waits: the queue of its controller is full (R379), or a stack of its is in SELF_REFRESH, or on
the way to or from it (R458). -/
def State.hbmHeld (s : State) (a n : Nat) : Bool := s.hbmFull a || s.stackSleeps a n

/-- A request enters the queue of its controller, for `least` ns or more (R379). -/
def State.hbmTake (s : State) (a least : Nat) : State :=
  (s.setHbm { s.hbm with
    queue := s.hbm.queue.filter (fun x => decide (s.ns < x.2)) ++
      [((hbmMap s.variant a).2, s.ns + least + Config.hbmQueueNs s.free)] } : State).takeFree

/-- HBM_READ (R379, R384): the request waits while the queue of its controller is full or the stack
sleeps (R458). `errs` says what has happened to the stored symbols of the blocks; the read resolves them. -/
def execHbmRead (addr : Addr) (len : BitVec 8) (errs : List (Fin 4 × Upset)) (s : State) : Out :=
  .next (
    let a := addr.toNat
    if s.variant.hbmEnd < a + len.toNat ∨ s.hbmHeld a len.toNat = true then s
    else
      let (s, d, st) := (s.upsetBlocks a errs).hbmRead a len.toNat
      (s.setHbm { s.hbm with ans := d, ansSt := st }).hbmTake a 45)

/-- HBM_WRITE (R379, R383): the request waits while the queue of its controller is full or the stack sleeps
(R458); then whole blocks are written, partial blocks merged, or the write of a block is discarded. -/
def execHbmWrite (addr : Addr) (data : List TByte) (s : State) : Out :=
  .next (
    let a := addr.toNat
    if s.variant.hbmEnd < a + data.length ∨ s.hbmHeld a data.length = true then s
    else
      let (s, st) := s.hbmWrite a data
      (s.setHbm { s.hbm with ansSt := st }).hbmTake a (if a % 64 = 0 ∧ data.length % 64 = 0 then 15 else 45))

/-- HBM_CORRECTED_WRITEBACK (R384): the corrected block is written back, unless a write has superseded it. -/
def execHbmCorrectedWriteback (block : BitVec 42) (s : State) : Out :=
  .next (
    let b := block.toNat
    if b ∉ s.hbm.wb then s
    else
      let off := s.stackOff (hbmMap s.variant (64 * b)).1
      (s.setHbm { s.hbm with
          wb := s.hbm.wb.filter (· != b)
          errs := if off then s.hbm.errs else Sparse.set (fun _ => Err.ok) s.hbm.errs b .ok }))

/-! ## FILL (R386) -/

/-- The pieces of a FILL's range: translated for a function's partition, chip-local for a firmware processor. -/
def State.fillPieces (s : State) (f : Nat) (slot : Option Nat) (a len : Nat) : State × List (Nat × Nat) × Status :=
  match slot with
  | none => (s, [(a, len)], if s.variant.hbmEnd < a + len then 0x0101 else 0)
  | some _ =>
    match s.partOfFunc f with
    | none => (s, [], 0x0101)
    | some p =>
      if winBase < a + len then (s.mmuFault p a 1 0x0101, [], 0x0101)
      else
        let (s, ps, st) := s.translate .fe 1 p a len true
        (s, ps, if st ≠ 0 then st else s.piecesAccess (.fw ⟨schedProc, by decide⟩) ps)

/-- FILL (R386): checked, and if it passes, in progress. -/
def execFill (cmd : Cmd) (s : State) : Out :=
  s.cmdRun 0x10 cmd (fun s f slot tag a =>
    let addr := leAt a 0 8
    let len := leAt a 8 8
    let mode := leAt a 0x18 1
    if setIn a 0x19 7 ∨ 1 < mode then .refuse s 0x0E06
    else if addr % 64 ≠ 0 ∨ len % 64 ≠ 0 ∨ len = 0 then .refuse s 0x0E07
    else
      let (s, ps, st) := s.fillPieces f slot addr len
      if st ≠ 0 then .refuse s st
      else if s.hbm.runs.any (fun r => r.func == f && r.slot.isSome == slot.isSome) then .refuse s 0x0E08
      else .accept (s.setHbm { s.hbm with
        runs := s.hbm.runs ++ [⟨f, slot, tag, addr, len, ps, BitVec.ofNat 64 (leAt a 0x10 8), decide (mode = 1)⟩] }))

/-- Whether a range touches an offline stack: a round of the interleave meets every stack (R380). -/
def State.touchesOff (s : State) (x : Nat × Nat) : Bool :=
  let n := Variant.stackCount s.variant
  let g := x.1 / 2048
  (List.range (min n ((x.1 + x.2 - 1) / 2048 + 1 - g))).any (fun i => s.stackOff (hbmMap s.variant ((g + i) * 2048)).1)

/-- The offline stacks as a mask. -/
def State.offMask (s : State) : Nat := sumOf (((List.range 8).filter s.stackOff).map (fun x => 2 ^ x))

/-- A range joins the ranges covered, which stay rising and apart. -/
def coverRange : Nat × Nat → List (Nat × Nat) → List (Nat × Nat)
  | x, [] => [x]
  | x, y :: r =>
    if x.2 < y.1 then x :: y :: r
    else if y.2 < x.1 then y :: coverRange x r
    else coverRange (min x.1 y.1, max x.2 y.2) r

/-- Every block outside the reserved range lies in ranges covered; a round of the interleave meets every stack. -/
def State.covered (s : State) (l : List (Nat × Nat)) : Bool :=
  l.any (fun x => x.1 == 0 && decide (s.variant.hbmEnd - 0x8000_0000 ≤ x.2))

/-- Every scrubber of a working stack is enabled (R389, R480). -/
def State.scrubbersOn (s : State) : State :=
  (List.range 8).foldl (fun s x => if s.stackCap x = 0 then s else s.setFld (R.HBM_SCRUB_CFG x) 31 31 1) s

/-- A completed FILL is recorded; with BOOT_FILL = 0 the scrubbers are enabled once FILLs have covered the stacks (R480). -/
def State.noteFill (s : State) (pieces : List (Nat × Nat)) : State :=
  let old := s.sys.boot.filled
  let new := pieces.foldl (fun l x => coverRange (x.1, x.1 + x.2) l) old
  let fill : Bool := match s.sys.boot.settings with | some x => x.bootFill | none => true
  let s : State := (s.setSys { s.sys with boot := { s.sys.boot with filled := new } })
  if !fill && s.covered new && !s.covered old then s.scrubbersOn else s

/-- FILL_COMPLETE (R386): every block has been performed; blocks of offline stacks were not written. -/
def execFillComplete (fn : FuncId) (s : State) : Out :=
  .next (match s.hbm.runs.find? (fun r => r.func == fn.val) with
    | none => s
    | some r =>
      let st : Status := if r.pieces.any s.touchesOff then 0x0E05 else 0
      let mask := s.offMask
      let s := r.pieces.foldl (fun s x => s.hbmFill x.1 x.2 r.pattern r.poison mask) s
      let s : State := (s.setHbm { s.hbm with runs := s.hbm.runs.erase r })
      (s.noteFill r.pieces).cmdDone r.func r.slot r.tag 0x10 (replyStatus st))

/-! ## Buckets (R387, R388) -/

/-- The register of a bucket. -/
def bucketReg : Bucket → Nat
  | .stack x => R.HBM_BKT x.val
  | .core p => R.HBM_CBKT p.val

/-- The leak interval of a bucket in nanoseconds (R395). -/
def State.leakNs (s : State) (bk : Bucket) : Nat :=
  1000000 * (match bk with | .stack _ => s.fld R.HBM_BKT_CFG 47 32 | .core _ => s.fld R.HBM_BKT_CFG 15 0)

/-- The end of a bucket's last leak interval. -/
def State.leakAt (s : State) (bk : Bucket) : Nat := Sparse.get (fun _ => 0) s.hbm.leaks (bucketReg bk)

/-- BUCKET_LEAK (R388): at the end of a LEAK interval LEVEL falls by 1 while above 0; the bucket of an offline stack has stopped
(R393). -/
def execBucketLeak (bk : Bucket) (s : State) : Out :=
  .next (
    let off : Bool := match bk with | .stack x => s.stackOff x.val | .core _ => false
    let a := bucketReg bk
    let l := s.fld a 15 0
    if off = true ∨ s.ns < s.leakAt bk + s.leakNs bk then s
    else
      let s : State := s.setHbm { s.hbm with leaks := Sparse.set (fun _ => 0) s.hbm.leaks a s.ns }
      if l = 0 then s else s.setFld a 15 0 (l - 1))

/-- The processor that takes a bucket's interrupt (R388): the security core in place of a warden that has failed (R433). -/
def State.bucketProc (s : State) (bk : Bucket) : Nat :=
  match bk with
  | .stack _ => 0
  | .core p => let w := 3 + p.val / 26; if s.procState w = 4 then 0 else w

/-- BUCKET_OVERFLOW_INTERRUPT (R388): firmware in RUN logs the interrupt and posts an ERROR notice on the PF's ring. -/
def execBucketOverflowInterrupt (bk : Bucket) (s : State) : Out :=
  .next (
    let i := s.bucketProc bk
    if bk ∉ s.fw.irqs ∨ s.procState i ≠ 2 then s
    else
      let s := (s.setFw { s.fw with irqs := s.fw.irqs.erase bk })
      let (kind, n) := match bk with | .stack x => (0, x.val) | .core p => (1, p.val)
      let ovf := s.fld (bucketReg bk) 31 16
      (s.logEvent i 0x0005 1 [kind, n, ovf]).notice 0 8 0
        (leBytes 1 kind ++ leBytes 1 0 ++ leBytes 2 n ++ leBytes 2 ovf) none)

/-! ## Scrubbing (R389, R390) -/

/-- Blocks of a pseudo-channel (R389). -/
def pcBlocks : Nat := 12582912

/-- Blocks that a pseudo-channel's scrub has visited. -/
def State.scrubbed (s : State) (pc : Nat) : Nat := Sparse.get (fun _ => 0) s.hbm.scrub pc

/-- Completed passes of a stack: those of its slowest pseudo-channel. -/
def State.passes (s : State) (st : Nat) : Nat :=
  ((List.range 64).map (fun c => s.scrubbed (64 * st + c) / pcBlocks)).foldl min (s.scrubbed (64 * st) / pcBlocks)

/-- The scrubber writes block `b` back with every word poisoned (R390). -/
def State.poisonBlock (s : State) (b : Nat) : State := (s.hbmWriteBlock b 0 (List.replicate 64 none)).1

/-- A scrub corrects a block: a row corrected in two consecutive passes becomes a candidate (R391). -/
def State.scrubFixed (s : State) (row : Nat) : State :=
  let s := if row ∈ s.hbm.corr1 then s.addCand row else s
  if row ∈ s.hbm.corr2 then s else (s.setHbm { s.hbm with corr2 := s.hbm.corr2 ++ [row] })

/-- What the scrubber does with block `b` (R390). -/
def State.scrubBlock (s : State) (b : Nat) : State :=
  let st := (hbmMap s.variant (64 * b)).1
  let cs := (wordsOf (64 * b) 64).filterMap s.hbmResolve
  match cs.find? (fun c => c != 0x0E02) with
  | some c =>
    let s := (s.firstErr (R.HBM_UE_FIRST st) (BitVec.ofNat 64 (c.toNat * 2 ^ 48 + 64 * b))).satInc (R.HBM_UE_CNT st) 31 0
    ((s.poisonBlock b).satInc (R.HBM_SCRUB_STAT st) 31 0).addCand (rowOf b)
  | none =>
    if s.hbmErr b = .corr then
      let s := (s.stackEvent st).scrubFixed (rowOf b)
      (s.setHbm { s.hbm with errs := Sparse.set (fun _ => Err.ok) s.hbm.errs b .ok, wb := s.hbm.wb.filter (· != b) })
    else s

/-- At the end of a pseudo-channel's pass the corrections of this pass become those of the previous one. -/
def State.endPass (s : State) (pc : Nat) : State :=
  let mine (row : Nat) : Bool := (hbmMap s.variant (row * 2048)).2 == pc
  (s.setHbm { s.hbm with
      corr1 := s.hbm.corr1.filter (fun r => !mine r) ++ s.hbm.corr2.filter mine
      corr2 := s.hbm.corr2.filter (fun r => !mine r) })

/-- The time between two scrub reads of a pseudo-channel at an even rate, in nanoseconds (R389). -/
def State.scrubNs (s : State) (st : Nat) : Nat := s.fld (R.HBM_SCRUB_CFG st) 7 0 * 3600000000000 / pcBlocks

/-- The last scrub read of a pseudo-channel and the time by which its pass is behind its schedule (R389, R463). -/
def State.sweptAt (s : State) (pc : Nat) : Nat × Nat := Sparse.get (fun _ => (0, 0)) s.hbm.swept pc

/-- The earliest time of a pseudo-channel's next scrub read: its even rate, or up to four times that rate while its pass is
behind (R389, R463). -/
def State.scrubDue (s : State) (pc : Nat) : Nat :=
  let x := s.sweptAt pc
  if s.scrubbed pc = 0 then 0 else x.1 + (if x.2 = 0 then s.scrubNs (pc / 64) else s.scrubNs (pc / 64) / 4)

/-- SCRUB_READ (R389, R390, R463): the next block of the pseudo-channel, to whose stored symbols has happened what `u` says.
The scrubber pauses while its stack sleeps, and then catches up. -/
def execScrubRead (pc : BitVec 9) (u : Upset) (s : State) : Out :=
  .next (
    let pc := pc.toNat
    let st := pc / 64
    if s.variant.stack st = false ∨ s.bitOf (R.HBM_SCRUB_CFG st) 31 = false ∨ s.stackOff st ∨ s.stackDown st ∨
        s.ns < s.scrubDue pc then s
    else
      let n := s.scrubbed pc
      let b := hbmAddr s.variant pc (n % pcBlocks * 64) / 64
      let s := if u = .wrong 0 then s else s.upsetBlock b u
      let was := s.passes st
      let s := s.scrubBlock b
      let s := (s.setHbm { s.hbm with scrub := Sparse.set (fun _ => 0) s.hbm.scrub pc (n + 1),
                                       swept := Sparse.set (fun _ => (0, 0)) s.hbm.swept pc
                                         (s.ns, if n = 0 then 0 else (s.sweptAt pc).2 + (s.ns - (s.sweptAt pc).1) - s.scrubNs st) })
      let s := if (n + 1) % pcBlocks = 0 then s.endPass pc else s
      s.satInc (R.HBM_SCRUB_STAT st) 63 32 (s.passes st - was))

/-! ## Repair (R391, R392) -/

/-- PENDING follows the candidates that remain. -/
def State.setPending (s : State) (st : Nat) : State :=
  let mine (row : Nat) : Bool := (hbmMap s.variant (row * 2048)).1 == st
  s.setFld (R.HBM_PPR st) 12 12 (if (s.hbm.cands ++ s.hbm.stuck).any mine then 1 else 0)

/-- Step 2 and step 4 of R392 on one block: rows 3 and 4 of R384 are kept as wholly poisoned, a correctable error goes. -/
def State.repairBlock (s : State) (b : Nat) : State :=
  let cs := (wordsOf (64 * b) 64).filterMap s.hbmResolve
  if cs.any (fun c => c != 0x0E02) then s.poisonBlock b
  else (s.setHbm { s.hbm with errs := Sparse.set (fun _ => Err.ok) s.hbm.errs b .ok, wb := s.hbm.wb.filter (· != b) })

/-- PPR_REPAIR (R392): the first candidate of the stack moves to a spare row of its pseudo-channel, or stays unrepaired. -/
def execPprRepair (st : StackId) (s : State) : Out :=
  .next (
    let st := st.val
    match s.hbm.cands.find? (fun row => (hbmMap s.variant (row * 2048)).1 == st) with
    | none => s
    | some row =>
      if s.stackOff st ∨ s.procState 0 ≠ 2 then s
      else
        let pc := (hbmMap s.variant (row * 2048)).2
        let used := Sparse.get (fun _ => 0) s.hbm.spares pc
        let s := (s.setHbm { s.hbm with cands := s.hbm.cands.filter (· != row) })
        if 32 ≤ used then
          let s := (s.setHbm { s.hbm with stuck := s.hbm.stuck ++ [row] })
          (s.logEvent 0 0x0006 1 [st, pc]).capUpdate (fun s => (s.setPending st).setFld (R.HBM_STAT st) 31 30 2)
        else
          let s := ((List.range 32).map (· + 32 * row)).foldl (fun s b => s.repairBlock b) s
          let s := (s.setHbm { s.hbm with
              spares := Sparse.set (fun _ => 0) s.hbm.spares pc (used + 1)
              hard := s.hbm.hard ++ [row] })
          let s := s.wrapInc (R.HBM_PPR st) 31 20
          s.capUpdate (fun s => (s.setFld (R.HBM_PPR st) 11 0 (s.fld (R.HBM_PPR st) 11 0 - 1)).setPending st))

/-! ## Offline stacks (R393) -/

/-- STACK_OFFLINE (R393, R398): the stack is offline and reports ABSENT; its bucket and its scrubber stop. -/
def State.takeOffline (s : State) (st : Nat) (selfTest : Bool) : State :=
  if s.variant.stack st = false ∨ s.stackOff st then s
  else
    let s := if selfTest then s.wrapInc R.TOP_CKTEST 37 34 else s
    let s := (s.logEvent 0 0x0006 1 [st]).capUpdate (fun s => (s.setFld (R.HBM_STAT st) 0 0 1).setFld (R.HBM_STAT st) 31 30 0)
    s.qosFall 2 s.partsLive ((List.range 8).filter (fun x => s.stackCap x ≠ 0)).length (Variant.stackCount s.variant)

/-- STACK_OFFLINE (R393). -/
def execStackOffline (st : StackId) (selfTest : Bool) (s : State) : Out := .next (s.takeOffline st.val selfTest)

end Sys2Proof.Machine
end

