-- ==== Sys2Proof/Machine/Tenancy.lean ====
section
/-!
DEFINITION. Partition commands, translation upkeep, and the sharing of a core between contexts (R400 to R421).
-/

namespace Sys2Proof.Machine

/-! ## Placement (R405, R409 order 5) -/

/-- Whether context 0 of a core still has its reset holdings, holds no partition and runs no firmware kernel (R236, R409). -/
def State.resetHoldings (s : State) (k : Nat) : Bool :=
  let v := s.variant
  (s.partOf k 0).isNone && !s.isFwKernel k 0 && s.reg (R.MA_CTX_ACC k 0) == regReset v (R.MA_CTX_ACC k 0) &&
    s.reg (R.VE_CTX k 0) == regReset v (R.VE_CTX k 0) && s.reg (R.FLG_CTX k 0) == regReset v (R.FLG_CTX k 0)

/-- The contexts of a core whose resources a placement for context `c` must leave alone: those of a firmware kernel count as
occupied (R236). -/
def State.otherCtxs (s : State) (k c : Nat) : List Nat :=
  (List.range 4).filter (fun d => (d != c || s.isFwKernel k d) && !(d == 0 && s.resetHoldings k))

/-- The live cores of a set of clusters. -/
def State.coresOf (s : State) (clusters : List Nat) : List Nat :=
  clusters.flatMap (fun c => ((List.range s.variant.slots).map (fun j => c * s.variant.slots + j)).filter (fun k => (s.phys k).isSome))

/-- Whether flag group `g` is free for context `c` on a core. -/
def State.groupFree (s : State) (c k g : Nat) : Bool :=
  (s.otherCtxs k c).all (fun d => !(groupsOf (s.reg (R.FLG_CTX k d))).contains g)

/-- Whether `n` accumulator rows from `base` are free. -/
def State.rowsFree (s : State) (c k base n : Nat) : Bool :=
  (s.otherCtxs k c).all (fun d => !overlaps base n (s.fld (R.MA_CTX_ACC k d) 9 0) (s.fld (R.MA_CTX_ACC k d) 26 16))

/-- Whether a program slot is free. -/
def State.slotFree (s : State) (c k j : Nat) : Bool := (s.otherCtxs k c).all (fun d => !s.bitOf (R.VE_CTX k d) j)

/-- Whether a segment is free. -/
def State.segFree (s : State) (c k g : Nat) : Bool :=
  match s.segOwner k g with
  | some d => !(s.otherCtxs k c).contains d
  | none => true

/-- Where the resources of a partition go on every core (R405). -/
structure Placement where
  bgrp : Nat
  acc  : Nat
  slots : List Nat
  segs : List Nat
  deriving DecidableEq, Repr

/-- The lowest common positions for `ngrp` groups, `rows` rows, `nslot` slots and `nseg` segments (R409). -/
def State.place (s : State) (ks : List Nat) (c ngrp rows nslot nseg : Nat) : Option Placement :=
  let grps := (List.range 64).filter (fun g => ks.all (fun k => s.groupFree c k g))
  let bg := (List.range 64).find? (fun b => decide (1 ≤ b) && decide (b + ngrp ≤ 64) &&
    (List.range ngrp).all (fun i => grps.contains (b + i)))
  let base := if rows = 0 then some 0 else
    (List.range 1024).find? (fun b => decide (b + rows ≤ 1024) && ks.all (fun k => s.rowsFree c k b rows))
  let sl := ((List.range 8).filter (fun j => ks.all (fun k => s.slotFree c k j))).take nslot
  let sg := ((List.range 48).filter (fun g => ks.all (fun k => s.segFree c k g))).take nseg
  match bg, base with
  | some b, some a => if sl.length = nslot ∧ sg.length = nseg then some ⟨b, a, sl, sg⟩ else none
  | _, _ => none

/-- The reset holdings of context 0 on a core are released (R409). -/
def State.releaseReset (s : State) (k : Nat) : State :=
  if s.resetHoldings k then
    let s := ((s.wrMaCtxAcc k 0 0).wrVeCtx k 0 0).setFlgCtx k 0 0
    ((List.range 48).filter (fun g => s.segOwner k g = some 0)).foldl (fun s g => s.wrSpSeg k g 0) s
  else s

/-- The mask of a list of bit numbers. -/
def maskOf (l : List Nat) : Nat := sumOf (l.map (fun i => 2 ^ i))

/-- Write the registers of R405 on one core; the generators of the new context start as SEED 0 sets them (R143). -/
def State.placeOn (s : State) (c : CtxId) (ngrp rows : Nat) (p : Placement) (k : Nat) : State :=
  let s := s.releaseReset k
  let s := s.wrMaCtxAcc k c (BitVec.ofNat 64 (rows * 2 ^ 16 + p.acc))
  let s := s.wrVeCtx k c.val (BitVec.ofNat 64 (maskOf p.slots))
  let s := s.setFlgCtx k c.val (BitVec.ofNat 64 (ngrp * 2 ^ 8 + p.bgrp))
  let s := s.modCtx k c.val (fun t => { t with rng := [] })
  p.segs.foldl (fun s g => (s.invalidateSeg k g).setReg (R.SP_SEG k g) (BitVec.ofNat 64 (2 ^ 7 + c.val * 8))) s

/-! ## PARTITION_CREATE (R408, R409) -/

/-- The extents of a PARTITION_CREATE: base and limit. -/
def extentsOf (a : List Byte) : List (Nat × Nat) :=
  (List.range (leAt a 0x0B 1)).map (fun e => (leAt a (0x40 + 16 * e) 8, leAt a (0x48 + 16 * e) 8))

/-- The highest 2 GiB of populated HBM, which firmware reserves (R430). -/
def State.fwBase (s : State) : Nat := s.variant.hbmEnd - 0x8000_0000

/-- An extent passes order 6 of R409. -/
def State.extentOk (s : State) (x : Nat × Nat) : Bool :=
  decide (x.1 % 0x20_0000 = 0) && decide ((x.2 + 1) % 0x20_0000 = 0) && decide (x.1 ≤ x.2) && decide (x.2 < s.fwBase) &&
    partIds.all (fun q => !s.bitOf (R.MMU_PCFG q) 63 || (List.range 8).all (fun e => !s.bitOf (R.MMU_EXT q e 0) 63 ||
      !overlaps x.1 (x.2 + 1 - x.1) (s.fld (R.MMU_EXT q e 0) 47 21 * 0x20_0000)
        ((s.fld (R.MMU_EXT q e 1) 47 21 + 1 - s.fld (R.MMU_EXT q e 0) 47 21) * 0x20_0000)))

/-- A root table passes order 6 of R409 among extents. -/
def rootOk (root : Nat) (xs : List (Nat × Nat)) : Bool :=
  decide (root % 0x2000 = 0) && xs.any (fun x => decide (x.1 ≤ root) && decide (root + 0x2000 ≤ x.2 + 1))

/-- The reply of a successful PARTITION_CREATE (R409). -/
def placeReply (p : Placement) : List Byte :=
  leBytes 2 0 ++ leBytes 1 p.bgrp ++ leBytes 1 0 ++ leBytes 2 p.acc ++ leBytes 1 (maskOf p.slots) ++ leBytes 1 0 ++
    leBytes 8 (maskOf p.segs)

/-- The clusters of a mask. -/
def clustersOf (m : Nat) : List Nat := (List.range 32).filter (fun c => m.testBit c)

/-- The checks of R409 after order 1. -/
def State.createChecks (s : State) (a : List Byte) : Status :=
  let part := leAt a 0 1
  let ctx := leAt a 1 1
  let ngrp := leAt a 2 1
  let func := leAt a 0x0A 1
  let next := leAt a 0x0B 1
  let cl := clustersOf (leAt a 0x0C 4)
  if leNat (slice a 0x20 32) ≠ 0 then 0x0F06
  else if 15 < part ∨ 3 < ctx ∨ ngrp < 1 ∨ 63 < ngrp ∨ 8 < leAt a 3 1 ∨ 1024 < leAt a 4 2 ∨ leAt a 6 1 < 1 ∨ 48 < leAt a 6 1 ∨
      leAt a 7 1 < 1 ∨ 64 < leAt a 7 1 ∨ 63 < func ∨ s.enabled func = false ∨ next < 1 ∨ 8 < next ∨ cl = [] then 0x0F07
  else if s.bitOf (R.MMU_PCFG part) 63 ∨ (s.partOfFunc func).isSome ∨ (s.jobPart (leAt a 8 2)).isSome then 0x0F08
  else if cl.any (fun c => s.clusterCap c == 0) ∨ partIds.any (fun q => s.bitOf (R.MMU_PCFG q) 63 &&
      decide (s.fld (R.MMU_PCFG q) 61 60 = ctx) && cl.any (fun c => s.bitOf (R.MMU_PCFG q) c)) ∨
      (s.place (s.coresOf cl) ctx ngrp (leAt a 4 2) (leAt a 3 1) (leAt a 6 1)).isNone then 0x0F09
  else if (extentsOf a).all s.extentOk = false ∨ rootOk (leAt a 0x10 8) (extentsOf a) = false then 0x0F0A
  else 0

/-- Bind the rings of a function (R280, R409). -/
def State.bindRings (s : State) (f p c : Nat) : State :=
  (List.range 8).foldl (fun s r =>
    ((s.setFld (R.FE_RING_CFG f r) 19 16 p).setFld (R.FE_RING_CFG f r) 21 20 c).setFld (R.FE_RING_CFG f r) 27 24 0) s

/-- The steps of a successful PARTITION_CREATE (R409). -/
def State.createPart (s : State) (a : List Byte) (pl : Placement) : State :=
  let p := leAt a 0 1
  let c := ctxId (leAt a 1 1)
  let f := leAt a 0x0A 1
  let mask := leAt a 0x0C 4
  let cl := clustersOf mask
  let s := (s.coresOf cl).foldl (fun s k => s.placeOn c (leAt a 2 1) (leAt a 4 2) pl k) s
  let s := s.setReg (R.MMU_PCFG p) (BitVec.ofNat 64 (2 ^ 63 + c.val * 2 ^ 60 + f * 2 ^ 54 + cl.length * s.variant.slots * 2 ^ 44 + mask))
  let s := s.setReg (R.MMU_PJOB p) (BitVec.ofNat 64 (leAt a 8 2))
  let s := s.setReg (R.MMU_TOFF p) (BitVec.ofNat 64 (leAt a 0x18 8))
  let s := s.setReg (R.MMU_ROOT p) (BitVec.ofNat 64 (leAt a 0x10 8))
  let xs := extentsOf a
  let s := ((List.range xs.length).zip xs).foldl (fun s e =>
    (s.setReg (R.MMU_EXT p e.1 0) (BitVec.ofNat 64 (2 ^ 63 + e.2.1))).setReg (R.MMU_EXT p e.1 1)
      (BitVec.ofNat 64 (e.2.2 / 0x20_0000 * 0x20_0000))) s
  let s := (s.setFld (R.FE_PSHARE p) 7 0 (leAt a 7 1)).setFld (R.FE_PSHARE_SH p) 7 0 (leAt a 7 1)
  (s.modPart p (fun _ => PartSt.reset)).bindRings f p c.val

/-- PARTITION_CREATE (R408, R409): a failing command changes nothing. -/
def execPartitionCreate (cmd : Cmd) (s : State) : Out :=
  s.cmdRun 0x21 cmd (fun s f _ _ a =>
    let st := if f ≠ 0 then 0x0F0B else s.createChecks a
    if st ≠ 0 then .refuse s st
    else
      match s.place (s.coresOf (clustersOf (leAt a 0x0C 4))) (leAt a 1 1) (leAt a 2 1) (leAt a 4 2) (leAt a 3 1) (leAt a 6 1) with
      | none => .refuse s 0x0F09
      | some pl => .done (s.createPart a pl) (placeReply pl))

/-! ## Translation upkeep (R414, R416, R417) -/

/-- Every TLB of the chip (R415). -/
def tlbUsers : List TlbUser := (List.finRange 832).map TlbUser.pos ++ [.fe, .lf]

/-- Every TLB loses a partition's entries that overlap a range. -/
def State.tlbPurge (s : State) (p lo len : Nat) : State := tlbUsers.foldl (fun s u => s.tlbDrop u p lo len) s

/-- A range's pages overlap an invalidated range (R417). -/
def pagesMeet (va len lo n : Nat) : Bool :=
  let a := va / 0x20_0000
  overlaps a ((va + len - 1) / 0x20_0000 + 1 - a) (lo / 0x20_0000) (n / 0x20_0000)

/-- A channel's run. -/
def State.lfRun (s : State) (ch : Nat) : Option LfRun := Sparse.get (fun _ => none) s.sys.lf.runs ch

/-- The ranges of a partition translated and not yet ended that overlap a range: transfers of its cores, FILLs of its
function and the descriptors of its Leapfrog channels. -/
def State.liveRanges (s : State) (p lo n : Nat) : List (Nat × Nat × Nat) :=
  let c := s.fld (R.MMU_PCFG p) 61 60
  let xs := (s.partCores p).flatMap (fun k => ((s.core k).dq.filter (fun e => decide (e.ctx.val = c) &&
    (match e.kind with | .dget => true | .dput => true | _ => false) && decide (0 < e.len) && pagesMeet e.remote e.len lo n)).map
      (fun e => (0, k, e.seq)))
  let fs := (s.hbm.runs.filter (fun r => r.slot.isSome && decide (s.partOfFunc r.func = some p) && pagesMeet r.va r.len lo n)).map
    (fun r => (1, r.func, r.tag))
  let ls := (List.range 16).filterMap (fun ch => match s.lfRun ch with
    | some r => if r.part = p ∧ r.started ∧ r.vas.any (fun v => decide (0 < v.2) && pagesMeet v.1 v.2 lo n) then some (2, ch, r.opseq) else none
    | none => none)
  xs ++ fs ++ ls

/-- Whether a range of `liveRanges` has not ended. -/
def State.rangeLives (s : State) (x : Nat × Nat × Nat) : Bool :=
  match x.1 with
  | 0 => (s.core x.2.1).dq.any (fun e => e.seq == x.2.2)
  | 1 => s.hbm.runs.any (fun r => r.func == x.2.1 && r.tag == x.2.2 && r.slot.isSome)
  | _ => match s.lfRun x.2.1 with
    | some r => r.opseq == x.2.2
    | none => false

/-- INVAL (R416): accepted with its fence 10 µs of the partition's Chorus later, after the fences before it. -/
def execInval (cmd : Cmd) (s : State) : Out :=
  s.cmdRun 0x20 cmd (fun s f slot tag a =>
    let va := leAt a 0 8
    let len := leAt a 8 8
    let root := leAt a 0x10 8
    let flags := leAt a 0x18 1
    let swap := flags.testBit 0
    let psel := flags.testBit 1
    let part := if psel then (if leAt a 0x19 1 < 16 then some (leAt a 0x19 1) else none) else s.partOfFunc f
    if setIn a 0x1A 6 ∨ 4 ≤ flags ∨ (!swap ∧ root ≠ 0) ∨ (!psel ∧ setIn a 0x19 1) then .refuse s 0x0F06
    else if psel ∧ f ≠ 0 then .refuse s 0x0F0B
    else if va % 0x20_0000 ≠ 0 ∨ len % 0x20_0000 ≠ 0 ∨ winBase ≤ va ∨ winBase < va + len then .refuse s 0x0F07
    else match part with
      | none => .refuse s 0x0F07
      | some p =>
        if s.bitOf (R.MMU_PCFG p) 63 = false then .refuse s 0x0F07
        else if swap ∧ (root % 0x2000 ≠ 0 ∨ s.inExtent p root 0x2000 = false) then .refuse s 0x0F0A
        else if 4 ≤ (s.part p).invals.length then .refuse s 0x0F08
        else
          let f0 := s.viewNs (some p) + 10000
          let fence := match (s.part p).invals.getLast? with | some e => max f0 (e.fence + 1) | none => f0
          let e : Inval := ⟨if len = 0 then 0 else va, if len = 0 then winBase else len, if swap then some root else none,
            fence, false, f, slot.getD 0, tag, []⟩
          .accept (s.modPart p (fun x => { x with invals := x.invals ++ [e] })))

/-- INVAL_FENCE (R417): at the fence every TLB loses the entries, ROOT takes NEWROOT, and what was translated before and
overlaps is what the INVAL waits for. -/
def execInvalFence (p : PartId) (s : State) : Out :=
  .next (
    let p := p.val
    match (s.part p).invals.find? (fun e => !e.fenced) with
    | none => s
    | some e =>
      if s.viewNs (some p) < e.fence then s
      else
        let live := s.liveRanges p e.va e.len
        let s := s.tlbPurge p e.va e.len
        let s := match e.newRoot with | some r => s.setReg (R.MMU_ROOT p) (BitVec.ofNat 64 r) | none => s
        s.modPart p (fun x => { x with
          invals := modifyFirst (fun (y : Inval) => !y.fenced) (fun y => { y with fenced := true, ranges := live }) x.invals }))

/-- The reply of an INVAL (R417). -/
def invalReply (e : Inval) (now : Nat) : List Byte := leBytes 2 0 ++ leBytes 6 0 ++ leBytes 8 e.fence ++ leBytes 8 now

/-- INVAL_COMPLETE (R417): every range that the first fenced INVAL waits for has ended. -/
def execInvalComplete (p : PartId) (s : State) : Out :=
  .next (
    let p := p.val
    match (s.part p).invals.find? (fun e => e.fenced && !e.ranges.any s.rangeLives) with
    | none => s
    | some e =>
      let s1 := s.modPart p (fun x => { x with invals := x.invals.erase e })
      s1.cmdDone e.func (some e.slot) e.tag 0x20 (invalReply e (s.viewNs (some p))))

/-- PAGE_WALK (R414, R415): a walk for an agent inserts its result or records its failure. -/
def execPageWalk (u : TlbUser) (p : PartId) (va : Addr) (wr : Bool) (s : State) : Out :=
  .next (
    if s.bitOf (R.MMU_PCFG p.val) 63 = false ∨ winBase ≤ va.toNat then s
    else
      let (s, w) := s.walk p.val va.toNat wr
      let agent := match u with | .pos _ => 0 | .fe => 1 | .lf => 3
      if w.status ≠ 0 then s.mmuFault p.val va.toNat agent w.status else s.tlbUse u w.entry)

/-! ## PARTITION_DESTROY (R410) -/

/-- The residency of context `c` on a core ends: what it holds is freed, and its put-group entries (R217, R405, R410). -/
def State.freeOn (s : State) (c : CtxId) (k : Nat) : State :=
  let segs := (List.range 48).filter (fun g => s.segOwner k g = some c.val)
  let s := (((s.dropGroups k c.val).wrMaCtxAcc k c 0).wrVeCtx k c.val 0).setFlgCtx k c.val 0
  segs.foldl (fun s g => s.wrSpSeg k g 0) s

/-- Whether something of a partition still runs (R410). -/
def State.partBusy (s : State) (p : Nat) : Bool :=
  let f := s.fld (R.MMU_PCFG p) 59 54
  (List.range 8).any (fun r => s.ringState f r != 0) ||
    (List.range 16).any (fun ch => s.bitOf (R.LF_CH_CFG ch) 24 && decide (s.fld (R.LF_CH_CFG ch) 23 20 = p) &&
      (s.fld (R.LF_CH_CFG ch) 30 28 == 1 || s.fld (R.LF_CH_CFG ch) 30 28 == 2))

/-- Unbind the channels of a partition (R410). -/
def State.unbindChans (s : State) (p : Nat) : State :=
  (List.range 16).foldl (fun s ch =>
    if s.bitOf (R.LF_CH_CFG ch) 24 ∧ s.fld (R.LF_CH_CFG ch) 23 20 = p then s.resetReg (R.LF_CH_CFG ch) else s) s

/-- The partition's MMU_ registers and shares are cleared (R410, R427). -/
def State.clearMmu (s : State) (p : Nat) : State :=
  let s := [R.MMU_PCFG p, R.MMU_PJOB p, R.MMU_TOFF p, R.MMU_ROOT p, R.MMU_FAULT p, R.MMU_WALK_CNT p, R.FE_PSHARE p,
    R.FE_PSHARE_SH p].foldl (fun s a => s.setReg a 0) s
  (List.range 8).foldl (fun s e => (s.setReg (R.MMU_EXT p e 0) 0).setReg (R.MMU_EXT p e 1) 0) s

/-- The steps of a successful PARTITION_DESTROY (R410); INVALs still pending have nothing left to wait for. -/
def State.destroyPart (s : State) (p : Nat) : State :=
  let c := ctxId (s.fld (R.MMU_PCFG p) 61 60)
  let f := s.fld (R.MMU_PCFG p) 59 54
  let s := s.partReset p
  let s := (s.part p).invals.foldl (fun s e => s.cmdDone e.func (some e.slot) e.tag 0x20 (invalReply e (s.viewNs (some p)))) s
  let s := (s.tlbPurge p 0 winBase)
  let s := (s.partCores p).foldl (fun s k => s.freeOn c k) s
  (((s.bindRings f 0 0).unbindChans p).clearMmu p).modPart p (fun _ => PartSt.reset)

/-- PARTITION_DESTROY (R410). -/
def execPartitionDestroy (cmd : Cmd) (s : State) : Out :=
  s.cmdRun 0x22 cmd (fun s f _ _ a =>
    let p := leAt a 0 1
    if f ≠ 0 then .refuse s 0x0F0B
    else if setIn a 1 15 then .refuse s 0x0F06
    else if 15 < p ∨ s.bitOf (R.MMU_PCFG p) 63 = false then .refuse s 0x0F07
    else if s.partBusy p then .refuse s 0x0F08
    else .done (s.destroyPart p) (replyStatus 0))

/-- VF_ENABLE (R400): host software sets NumVFs. -/
def execVfEnable (num : BitVec 6) (s : State) : Out := .next (s.setFw { s.fw with numVfs := num.toNat })

/-! ## Sharing a core (R419 to R421) -/

/-- Whether a context is ready (R419). -/
def State.ctxReady (s : State) (k c : Nat) : Bool :=
  let st := s.seqState k c
  let t := s.ctx k c
  let waited : Bool := match t.wait with | some w => w.result.isSome | none => false
  let basked : Bool := match t.bask with | some w => w.result.isSome || w.entry.isSome | none => false
  let launched : Bool := match t.launch with | some l => decide (l.target.toNat ≤ s.chorus.toNat) | none => false
  let timed : Bool := match t.timed with | some l => decide (l.target.toNat ≤ s.chorus.toNat) | none => false
  decide (st = 1 ∨ st = 2 ∨ st = 5) || waited || basked || launched || timed

/-- The earliest target of a context's LAUNCH_AT or timed start that is 5 µs away or less (R419). -/
def State.targetSoon (s : State) (k c : Nat) : Option Nat :=
  let t := s.ctx k c
  let ts := (match t.launch with | some l => [l.target.toNat] | none => []) ++ (match t.timed with | some l => [l.target.toNat] | none => [])
  (ts.filter (fun x => decide (x ≤ s.chorus.toNat + 5000 * 256))).min?

/-- The context that is to run next (R419): the earliest target that is near, else the next ready one in rotating order. -/
def State.nextCtx (s : State) (k : Nat) : Option Nat :=
  let run := (s.core k).run.val
  let near := (List.range 4).filterMap (fun c => (s.targetSoon k c).map (fun t => (t, c)))
  match near.find? (fun x => near.all (fun y => decide (x.1 ≤ y.1))) with
  | some x => if x.2 = run then none else some x.2
  | none => ([1, 2, 3].map (fun i => (run + i) % 4)).find? (fun c => s.ctxReady k c)

/-- The running context is at a yield point (R420): IDLE, WAIT, BASK, LAUNCH_AT or END issued, or stopped by a fault. -/
def State.atYield (s : State) (k : Nat) : Bool :=
  let st := s.seqState k (s.core k).run.val
  decide (st ≠ 1 ∧ st ≠ 2)

/-- SHARE of a context; a firmware kernel counts as 1 (R422). -/
def State.ctxShare (s : State) (k c : Nat) : Nat := match s.partOf k c with | some p => s.share p | none => 1

/-- The part of a round that a ready context's slice takes (R419): a context whose part falls below MINSLICE has MINSLICE, and
the others divide the rest (the examples under R424). -/
def State.slicePart (s : State) (k c : Nat) : Nat × Nat :=
  let round := s.fld R.FE_SCHED_CFG 31 16
  let least := s.fld R.FE_SCHED_CFG 15 8
  let cs := (List.range 4).filter (fun c => s.ctxReady k c)
  let t := sumOf (cs.map (s.ctxShare k))
  let low (c : Nat) : Bool := decide (round * s.ctxShare k c < least * t)
  let rest := round - least * (cs.filter low).length
  if low c then (least, round) else (rest * s.ctxShare k c, round * sumOf ((cs.filter (fun c => !low c)).map (s.ctxShare k)))

/-- A context's slice in nanoseconds. -/
def State.sliceNs (s : State) (k c : Nat) : Nat :=
  let x := s.slicePart k c
  s.fld R.FE_SCHED_CFG 31 16 * 1000 * x.1 / x.2

/-- Partitions whose fraction of a core's time MINSLICE changes have a notice (R423, R424). -/
def State.sliceNotices (s : State) (k : Nat) : State :=
  let cs := (List.range 4).filter (fun c => s.ctxReady k c)
  let t := sumOf (cs.map (s.ctxShare k))
  let xs := cs.filterMap (fun c => (s.partOf k c).map (fun p => (p, s.slicePart k c)))
  xs.foldl (fun s x => s.qosPart 0 x.1 (s.share x.1) t x.2.1 x.2.2) s

/-- SLICE_END (R419): the running context's slice has lasted its time while another context is ready. -/
def execSliceEnd (k : CoreId) (s : State) : Out :=
  .next (
    let x := s.core k.val
    let run := x.run.val
    if ((List.range 4).any (fun c => c != run && s.ctxReady k.val c)) ∧ x.sliceEnd = none ∧ x.sliceAt + s.sliceNs k.val run ≤ s.ns then
      (s.modCore k.val (fun x => { x with sliceEnd := some s.ns })).sliceNotices k.val
    else s)

/-- Finish what a context's wait or BASK has waiting for it to run (R248, R299); a target that came while it did not run is
missed (R169, R260). -/
def State.resumeCtx (s : State) (k : Nat) (c : CtxId) : State :=
  let s := s.modCtx k c.val (fun t => t.missed s.chorus)
  let s : State := match (s.ctx k c.val).wait with
    | some w => (match w.result with | some r => s.waitEnd k c.val w r | none => s)
    | none => s
  match (s.ctx k c.val).bask with
  | some w =>
    (match w.entry with
     | some n => s.deliver k c w n
     | none => match w.result with
       | some r => s.baskEnd k c.val w r
       | none => s)
  | none => s

/-- CONTEXT_SWITCH (R419 to R421): at a yield point with the outgoing context's queues empty the core takes context `c`, which
is the next to run, empties its held and read buffers and zeroes v0 to v31. -/
def execContextSwitch (k : CoreId) (c : CtxId) (s : State) : Out :=
  .next (
    let x := s.core k.val
    let out := x.run
    let idle : Bool := !(x.mq.any (fun e => e.ctx = out)) && !(x.vq.any (fun e => e.ctx = out))
    let due : Bool := !s.ctxReady k.val out.val || x.sliceEnd.isSome || (s.targetSoon k.val c.val).isSome
    if s.nextCtx k.val ≠ some c.val ∨ s.atYield k.val = false ∨ idle = false ∨ due = false then s
    else
      let s := if s.seqState k.val out.val = 3 ∨ s.seqState k.val out.val = 4 then s.gated k.val else s
      (s.modCore k.val (fun x => { x.emptyHeld with run := c, rbuf := [], vregs := [], vbad := [], sliceAt := s.ns, sliceEnd := none })).resumeCtx
        k.val c)

/-- SLICE_OVERRUN (R420): the running context is past its slice by YIELD_MAX without a yield point while another is
ready. -/
def execSliceOverrun (k : CoreId) (s : State) : Out :=
  .next (
    let x := s.core k.val
    let past : Bool := match x.sliceEnd with
      | some t => decide (t + s.fld R.FE_SCHED_CFG 7 0 * 1000000 ≤ s.ns)
      | none => false
    let other : Bool := (List.range 4).any (fun c => c != x.run.val && s.ctxReady k.val c)
    if past = true ∧ other = true ∧ s.atYield k.val = false then
      (s.modCore k.val (fun x => { x with sliceEnd := none })).faultCtx k.val x.run
        { unit := 1, status := 0x0F0C, seq := x.seqNo, pc := s.pc k.val x.run.val
          instr := s.wordAt k.val x.run.val (s.pc k.val x.run.val) }
    else s)

end Sys2Proof.Machine
end

