-- ==== Sys2Proof/Machine/LfCore.lean ====
section
/-!
DEFINITION. The end of a pending commit (R270 to R272), and Leapfrog groups: their members, faults and re-forming (R359 to
R367).
-/

namespace Sys2Proof.Machine

/-! ## The end of a commit (R270 to R272, R367) -/

/-- The result block (R270). -/
def resultBlock (st : Status) (check hi lo addr applied : Nat) (late : Bool) : List Byte :=
  leBytes 2 st.toNat ++ leBytes 2 check ++ leBytes 1 hi ++ leBytes 1 lo ++ leBytes 1 late.toNat ++ leBytes 1 0 ++
    leBytes 8 addr ++ leBytes 8 applied ++ leBytes 8 0

/-- A pending commit leaves and its command completes. The result of one that firmware issued itself is what the
sideband's PWR_COMMIT returns (R523). -/
def State.leaveCommit (s : State) (x : Commit) (b : List Byte) : State :=
  let s := s.modChr (fun c => { c with commit := none })
  match x.slot with
  | some _ => s.cmdDone x.func x.slot x.tag 0x30 b
  | none =>
    if s.sys.sb.waits then
      let sb : SbState := { s.sys.sb with status := BitVec.ofNat 16 (leAt b 0 2), data := b, waits := false }
      (s.setSys { s.sys with sb := sb })
    else s

/-- A pending commit ends with its commit notice, on the ring of the function that issued it (R271). -/
def State.endCommit (s : State) (x : Commit) (st : Status) (applied : Nat) (late : Bool) : State :=
  let b := resultBlock st 0 0 0 0 applied late
  let s := s.leaveCommit x b
  if x.slot.isSome then s.notice x.func 5 st b none else s

/-- A re-form cancels a pending commit that names a Leapfrog scope (R367). -/
def State.preemptCommit (s : State) : State :=
  match s.chr.commit with
  | some x => if x.scope.testBit 2 ∨ x.scope.testBit 3 then s.endCommit x 0x0D0C 0 false else s
  | none => s

/-! ## Groups (R359 to R363, R374, R375) -/

/-- Word `w` of a group's live entry: 0 to 3 for A to D. -/
def State.grp (s : State) (g w : Nat) : Word64 := s.reg (R.LF_GRP g w)

/-- Members of an entry. -/
def entrySize (a : Word64) : Nat := bits a 55 42 + 1

/-- Own rank in an entry. -/
def entryRank (a : Word64) : Nat := bits a 41 28

/-- Rank of NEXT, or PREV, of a rank (R360). -/
def neighbour (size rank : Nat) (next : Bool) : Nat := if next then (rank + 1) % size else (rank + size - 1) % size

/-- Generation and chip of the member at a rank of the live list (R360). -/
def State.member (s : State) (g r : Nat) : Nat × Nat := (s.lfMembers g).getD r (0, 0)

/-- LF_GSTAT_g.STATE (R375). -/
def State.grpState (s : State) (g : Nat) : Nat := s.fld (R.LF_GSTAT g) 63 61

/-- The live MODE is RING. -/
def State.ringMode (s : State) (g : Nat) : Bool := decide (bits (s.grp g 0) 63 62 = 1)

/-- A channel's run. -/
def State.setRun (s : State) (ch : Nat) (r : Option LfRun) : State :=
  (s.setSys { s.sys with lf := { s.sys.lf with runs := Sparse.set (fun _ => none) s.sys.lf.runs ch r } })

/-- A window's grant is returned as CREDIT_RET returns one (R353): its units become HELD. -/
def State.returnGrant (s : State) (w : LfWin) : State :=
  match w.core with
  | some k => if ((s.core k).grant w.tag).used ∧ ((s.core k).grant w.tag).gen = w.gen then s.endGrant k w.tag else s
  | none => s

/-- Close every window of a half. -/
def State.closeWins (s : State) (h : LfHalf) : State := h.wins.foldl (fun s w => s.returnGrant w) s

/-- Every half of a channel's run ends with a status; the first status stays (R355, R365). -/
def State.lfEnd (s : State) (ch : Nat) (st : Status) : State :=
  match s.lfRun ch with
  | none => s
  | some r =>
    let s := r.halves.foldl (fun s h => s.closeWins h) s
    s.setRun ch (some { r with
      halves := r.halves.map (fun h => { h with fin := true, wins := [] })
      status := if r.status = 0 then st else r.status
      started := true })

/-- Every started or waiting descriptor of a group completes with GS_0D06 (R365). -/
def State.lfEndGroup (s : State) (g : Nat) : State :=
  (List.range 16).foldl (fun s ch => match s.lfRun ch with
    | some r => if r.group = g then s.lfEnd ch 0x0D06 else s
    | none => s) s

/-- The group notice to the function of the partition that holds the group's channel (R365, R366, R443). -/
def State.groupNotice (s : State) (g frank : Nat) : State :=
  let ch := bits (s.grp g 0) 61 58
  let cfg := R.LF_CH_CFG ch
  let p := s.fld cfg 23 20
  if s.bitOf cfg 24 ∧ s.bitOf (R.MMU_PCFG p) 63 then
    s.notice (s.fld (R.MMU_PCFG p) 59 54) 9 0
      (leBytes 1 g ++ leBytes 1 (s.grpState g) ++ leBytes 2 frank ++ leBytes 1 (s.fld (R.LF_GSTAT g) 59 56)) none
  else s

/-- The group becomes READY with the next epoch and OPSEQ 0 (R362, R365, R366). -/
def State.groupReady (s : State) (g : Nat) : State :=
  let a := R.LF_GSTAT g
  let s := ((((s.setFld a 63 61 1).wrapInc a 59 56).setFld a 55 42 0x3FFF).setFld a 31 0 0)
  let b := Sparse.set (fun _ => 0) (Sparse.set (fun _ => 0) s.sys.lf.beats (2 * g) s.ns) (2 * g + 1) s.ns
  (s.setSys { s.sys with lf := { s.sys.lf with beats := b } })

/-- A re-form to come of a group. -/
def State.pendOf (s : State) (g : Nat) : Option LfPend := Sparse.get (fun _ => none) s.sys.lf.reforms g

/-- Set a group's re-form to come. -/
def State.setPend (s : State) (g : Nat) (p : Option LfPend) : State :=
  (s.setSys { s.sys with lf := { s.sys.lf with reforms := Sparse.set (fun _ => none) s.sys.lf.reforms g p } })

/-- The background entry of a re-form without the member at rank `frank` (R366 step 3). -/
def State.reformWords (s : State) (g frank : Nat) : List Word64 :=
  let a := s.grp g 0
  let n := entrySize a
  let r := entryRank a
  let a' := setBits (setBits (setBits a 55 42 (n - 2)) 41 28 (if frank < r then r - 1 else r)) 56 56 0
  let b := s.grp g 1
  let c := s.grp g 2
  let b1 := if neighbour n r true = frank then setBits b 19 0 (bits c 19 0) else b
  let b2 := if neighbour n r false = frank then setBits b1 51 32 (bits c 51 32) else b1
  let d := s.grp g 3
  [a', b2, c, setBits d 0 0 (1 - bits d 0 0)]

/-- The new member list, written into the other half of the list area (R366 step 3, R360). -/
def State.writeList (s : State) (g frank : Nat) : State :=
  let d := s.grp g 3
  let base := bits d 47 16 * 0x10000 + (1 - bits d 0 0) * 0x8000
  let ms := (s.lfMembers g).eraseIdx frank
  (s.hbmWrite base (carried (ms.flatMap (fun m => leBytes 2 (m.1 * 2 ^ 14 + m.2))))).1

/-- A re-form notice takes effect on this member (R366 steps 2 and 3, R367, R370): the group is REFORMING, its descriptors
end, and the background entry waits for the instant; of two notices for one fault the earlier instant counts, and a
notice for another fault stops the re-form. -/
def State.takeReform (s : State) (g frank inst : Nat) : State :=
  match s.pendOf g with
  | some p =>
    if p.frank = frank then s.setPend g (some { p with inst := min p.inst inst })
    else ((s.setPend g none).setFld (R.LF_GSTAT g) 63 61 2).groupNotice g frank
  | none =>
    let words := s.reformWords g frank
    let s := ((s.setFld (R.LF_GSTAT g) 63 61 3).setFld (R.LF_GSTAT g) 55 42 frank).lfEndGroup g
    ((s.writeList g frank).preemptCommit).setPend g (some ⟨frank, inst, words⟩)

/-- A re-form notice to a neighbour (R366 step 2). -/
def State.sendReform (s : State) (g frank inst : Nat) (next : Bool) : State :=
  let a := s.grp g 0
  let r := neighbour (entrySize a) (entryRank a) next
  if r = frank then s
  else (s.setNet (s.net ++ [.ctl 5 (s.member g r).2 [g, frank, s.fld (R.LF_GSTAT g) 59 56, inst]]))

/-- The engine declares a fault of a group (R364 to R367); what a re-form is already under way for is no second fault
(R370). -/
def State.groupFault (s : State) (g frank : Nat) : State :=
  let a := s.grp g 0
  let st := s.grpState g
  if s.ringMode g = false ∨ entrySize a < 2 ∨ st = 0 ∨ st = 2 then s
  else if st = 3 ∧ s.fld (R.LF_GSTAT g) 55 42 = frank then s
  else if st = 3 then (((s.setPend g none).setFld (R.LF_GSTAT g) 63 61 2).setFld (R.LF_GSTAT g) 55 42 frank).groupNotice g frank
  else
    let s := ((((s.setFld (R.LF_GSTAT g) 63 61 2).setFld (R.LF_GSTAT g) 55 42 frank).lfEndGroup g).groupNotice g frank)
    if bit a 56 ∧ bit a 57 = false ∧ s.bitOf R.LF_CFG 63 ∧ 3 ≤ entrySize a ∧ frank < entrySize a ∧ s.procState schedProc = 2 then
      let inst := s.chorusNs + s.fld R.LF_CFG 62 56 * 1000000
      ((s.sendReform g frank inst true).sendReform g frank inst false).takeReform g frank inst
    else s

/-- The hops of a 20-bit route (R361). -/
def routeHops (rt : Nat) : List (Fin 4) :=
  (List.range (natBits rt 19 16)).map (fun h => ⟨rt / 4 ^ h % 4, Nat.mod_lt _ (by omega)⟩)

/-- The hops of the route that the engine takes to a chip (R361): toward NEXT (`some true`) or PREV the entry's own route
where it has one, then the lowest routing table entry; none is R316 alone. -/
def State.routeTo (s : State) (entry : List Word64) (dir : Option Bool) (chip : Nat) : List (Fin 4) :=
  let b := entry.getD 1 0
  let own := match dir with
    | some true => bits b 19 0
    | some false => bits b 51 32
    | none => 0
  if natBits own 19 16 ≠ 0 then routeHops own
  else
    match (List.range 32).find? (fun i => s.bitOf (R.LF_RT i 0) 63 && decide (s.fld (R.LF_RT i 0) 13 0 ≤ chip) &&
      decide (chip ≤ s.fld (R.LF_RT i 0) 29 16)) with
    | some i => routeHops (s.fld (R.LF_RT i 1) 19 0)
    | none => []

/-- The output port of the first hop toward a neighbour. -/
def State.hopPort (s : State) (entry : List Word64) (next : Bool) (chip : Nat) : Option Nat :=
  match s.routeTo entry (some next) chip with
  | p :: _ => some p.val
  | [] => s.outPort chip

/-- The words of a group's live entry. -/
def State.entryOf (s : State) (g : Nat) : List Word64 := [s.grp g 0, s.grp g 1, s.grp g 2, s.grp g 3]

/-- After a port has lost its last UP link: groups whose first hop toward a neighbour leaves by it have failed (R364). -/
def State.portLost (s : State) (p : Nat) : State :=
  (List.range 64).foldl (fun s g =>
    if s.ringMode g then
      let a := s.grp g 0
      let hit (next : Bool) : Option Nat :=
        let r := neighbour (entrySize a) (entryRank a) next
        if s.hopPort (s.entryOf g) next (s.member g r).2 = some p then some r else none
      match hit true with
      | some r => s.groupFault g r
      | none => match hit false with
        | some r => s.groupFault g r
        | none => s
    else s) s

/-- The swap of a group's entry (R366 step 4): the group is READY. -/
def State.reformSwap (s : State) (g : Nat) (p : LfPend) : State :=
  let s := ((List.range 4).zip p.words).foldl (fun s x => s.setReg (R.LF_GRP g x.1) x.2) s
  ((s.setPend g none).groupReady g).groupNotice g p.frank

/-- What REFORM_NOTICE does to a member whose group may re-form: the notice goes on the way it was going, and is taken; after
its instant it is applied at receipt. -/
def State.heedReform (s : State) (g : Nat) (m : Reform) : State :=
  let frank := m.frank.toNat
  let known : Bool := match s.pendOf g with | some p => p.frank == frank | none => false
  let s := if known then s else s.sendReform g frank m.inst.toNat (!m.fromNext)
  if entryRank (s.grp g 0) = frank then s
  else
    let s := s.takeReform g frank m.inst.toNat
    match s.pendOf g with
    | some p => if p.inst ≤ s.chorusNs then s.reformSwap g p else s
    | none => s

/-- REFORM_NOTICE (R366, R367): a notice of the group's EPOCH reaches a member that is READY or REFORMING. A group that does
not re-form here (SKEN, BAR, its size, this chip's AUTO) fails. -/
def execReformNotice (g : GroupId) (m : Reform) (s : State) : Out :=
  .next (
    let g := g.val
    let frank := m.frank.toNat
    let a := s.grp g 0
    let s := s.taken (.ctl 5 s.chipId [g, frank, m.epoch.toNat, m.inst.toNat])
    if s.ringMode g = false ∨ s.grpState g = 0 ∨ s.grpState g = 2 ∨ entrySize a ≤ frank ∨
        s.fld (R.LF_GSTAT g) 59 56 ≠ m.epoch.toNat then s
    else if bit a 56 ∧ bit a 57 = false ∧ s.bitOf R.LF_CFG 63 ∧ 3 ≤ entrySize a then s.heedReform g m
    else (((((s.setPend g none).setFld (R.LF_GSTAT g) 63 61 2).setFld (R.LF_GSTAT g) 55 42 frank).lfEndGroup g).groupNotice g frank))

/-- REFORM_SWAP (R366 step 4): at the instant the entry is swapped. -/
def execReformSwap (g : GroupId) (s : State) : Out :=
  .next (match s.pendOf g.val with
    | none => s
    | some p => if s.chorusNs < p.inst then s else s.reformSwap g.val p)

/-- LF_HEARTBEAT (R364): a heartbeat to NEXT and to PREV, where they are MX3. -/
def execLfHeartbeat (g : GroupId) (s : State) : Out :=
  .next (
    let a := s.grp g.val 0
    let me := entryRank a
    let send (s : State) (next : Bool) : State :=
      let m := s.member g.val (neighbour (entrySize a) me next)
      if m.1 = 3 then
        (s.setNet (s.net ++ [.engine m.2 (s.routeTo (s.entryOf g.val) (some next) m.2) ⟨g, BitVec.ofNat 4 (s.fld (R.LF_GSTAT g.val) 59 56),
          BitVec.ofNat 32 (s.fld (R.LF_GSTAT g.val) 31 0), !next, BitVec.ofNat 14 me, .beat⟩]))
      else s
    if s.ringMode g.val = false ∨ entrySize a < 2 ∨ s.grpState g.val ≠ 1 then s else send (send s true) false)

/-- LF_HEARTBEAT_LOSS (R364): no heartbeat of an MX3 neighbour for 1 ms. -/
def execLfHeartbeatLoss (g : GroupId) (next : Bool) (s : State) : Out :=
  .next (
    let a := s.grp g.val 0
    let r := neighbour (entrySize a) (entryRank a) next
    let last := Sparse.get (fun _ => 0) s.sys.lf.beats (2 * g.val + next.toNat)
    if s.ringMode g.val = false ∨ (s.member g.val r).1 ≠ 3 ∨ s.ns < last + 1000000 then s else s.groupFault g.val r)

/-- Whether a command is an arrival at step `n` of a barrier group, or the notice that it is complete. -/
def isArrival (g n : Nat) : Instr → Bool
  | .arrivalMessage h _ m => decide (h.val = g ∧ m.toNat = n)
  | .barrierNotice h m _ => decide (h.val = g ∧ n ≤ m.toNat)
  | _ => false

/-- BARRIER_TIMEOUT (R275): the descriptor waits for a step that has not completed within TMO of the chip's own arrival at
it; it fails, and the group is marked failed. An arrival in this tick wins. -/
def execBarrierTimeout (id : BitVec 64) (s : State) : Out :=
  .next (match s.fe.descs.find? (fun (d : Desc) => d.id == id.toNat) with
    | none => s
    | some d =>
      match s.chr.arrAt.find? (fun e => e.1 == d.bgrp && e.2.1 == d.step) with
      | none => s
      | some e =>
        if d.lmode = 2 ∧ d.ready = false ∧ s.pending.any (isArrival d.bgrp d.step) = false ∧ s.fld (R.CHR_STEP d.bgrp) 63 32 < d.step ∧
            e.2.2 + max 1 (s.fld R.CHR_BARRIER_CFG 31 16) * 1000000 ≤ s.ns then
          let s := s.endDesc d 0x0A08 none
          if s.ringMode d.bgrp then s.groupFault d.bgrp 0x3FFF
          else if s.variant.lf then s.setFld (R.LF_GSTAT d.bgrp) 63 61 2
          else s
        else s)

/-- LF_BARRIER_SET (R372): on the N640 the scheduler core keeps the barrier part of a group, in the words that the group
table has for it elsewhere. -/
def execLfBarrierSet (cmd : Cmd) (s : State) : Out :=
  s.cmdRun 0x40 cmd (fun s _ _ _ a =>
    let g := leAt a 0 1
    let fl := leAt a 1 1
    let size := leAt a 2 2 + 1
    let area := leAt a 8 8
    if s.variant.lf then .done s (resultBlock 0x0D07 0 0 0 0 0 false)
    else if 63 < g ∨ 3 < fl ∨ area % 0x10000 ≠ 0 then .refuse s.takeFree (Config.argStatus s.free)
    else if s.fe.descs.any (fun d => (d.lmode = 2 && d.ready = false && d.bgrp = g) || (d.barr && d.bgrp = g)) then
      .done s (resultBlock 0x0D09 0 0 0 0 0 false)
    else
      let ms := (List.range size).map (s.lfMember area (fl % 2))
      let chips := ms.map (fun m => m.2)
      let bad2 := decide (s.xdim * s.ydim < size)
      let bad3 := ms.any (fun m => m.1 == 0 || decide (s.xdim * s.ydim ≤ m.2)) || !decide chips.Nodup ||
        !ms.contains (3, s.chipId)
      if bad2 then .reject s 0x0A04 (resultBlock 0x0A04 0x0302 0 0 0 0 false)
      else if bad3 then .reject s 0x0A04 (resultBlock 0x0A04 0x0303 0 0 0 0 false)
      else
        let rank := (chips.findIdx (fun c => c == s.chipId))
        let s := s.setReg (R.LF_GRP g 0) (BitVec.ofNat 64 ((fl / 2) * 2 ^ 57 + (size - 1) * 2 ^ 42 + rank * 2 ^ 28))
        let s := s.setReg (R.LF_GRP g 3) (BitVec.ofNat 64 (area / 0x10000 % 2 ^ 32 * 2 ^ 16 + fl % 2))
        let cfg : Word64 := BitVec.ofNat 64 (leAt a 4 4)
        .done ((s.setReg R.CHR_BARRIER_CFG cfg).setReg R.CHR_BARRIER_CFG_SH cfg) (resultBlock 0 0 0 0 0 s.chorusNs false))

end Sys2Proof.Machine
end

