-- ==== Sys2Proof/Machine/Links.lean ====
section
/-!
DEFINITION. Link training, running links, sleep and wake, ports, routing and older generations (R311 to R335), and the
die-to-die bridges (R20).
-/

namespace Sys2Proof.Machine

/-! ## Links and ports -/

/-- A port's state beside its registers. -/
def State.port (s : State) (p : Nat) : PortRec := Sparse.get (fun _ => PortRec.reset) s.sys.ports p

/-- Change a port. -/
def State.modPort (s : State) (p : Nat) (f : PortRec → PortRec) : State :=
  (s.setSys { s.sys with ports := Sparse.set (fun _ => PortRec.reset) s.sys.ports p (f (s.port p)) })

/-- Something a link or port sends. -/
def State.lnkSend (s : State) (o : LnkOut) : State := (s.setSys { s.sys with lnkOut := s.sys.lnkOut ++ [o] })

/-- Set LNK_STAT_l.STATE. -/
def State.setLinkState (s : State) (l x : Nat) : State := s.setFld (R.LNK_STAT l) 63 60 x

/-- A link enters a state in which it uses no generation and has no lane up (R336). -/
def State.linkIdle (s : State) (l x : Nat) : State :=
  ((s.setLinkState l x).setFld (R.LNK_STAT l) 59 58 0).setFld (R.LNK_STAT l) 57 56 0

/-- Lanes of a mask. -/
def laneCount (m : Nat) : Nat := (if m.testBit 0 then 1 else 0) + (if m.testBit 1 then 1 else 0)

/-- Lanes offered at training (R335). -/
def State.laneMask (s : State) (l : Nat) : Nat := let m := s.fld (R.LNK_CTL l) 1 0; if m = 0 then 3 else m

/-- Enter DETECT and send the training pattern (R321); `timer` says whether the silence timer starts (R322). -/
def State.detect (s : State) (l : Nat) (timer : Bool) : State :=
  ((s.linkIdle l 1).lnkSend (.pattern l)).modLink l (fun r => { r with
    phase := 0, since := s.ns, resume := false, draining := false, proposed := false
    silence := if timer then some s.ns else r.silence })

/-! ## Sending (R313, R317 to R319, R330, R331) -/

/-- The virtual channel of a packet (R317): request class 0 and 1, response class 0 and 1. -/
def chanOf (m : NetPkt) : Nat := (match m.pkt with | .resp .. => 2 | _ => 0) + m.crossed.toNat

/-- The virtual channel of a flit; one that carries no packet is of request class 0. -/
def flitChan (x : Option NetPkt) : Nat := match x with | some m => chanOf m | none => 0

/-- Whether the replay buffer of a link takes a flit of channel `c` (R317, R324): each other channel that holds no flit in
it keeps one of the 1,024 places, so that no channel waits for what another holds. -/
def State.linkRoom (s : State) (l c : Nat) : Bool :=
  let u := (s.link l).unacked
  let others := (List.range 4).filter (fun d => d ≠ c ∧ u.all (fun x => flitChan x.2 ≠ d))
  decide (u.length + others.length < 1024)

/-- Links that take a new flit of a channel: UP, not draining, with room in the replay buffer (R324, R327). -/
def State.openLinks (s : State) (p c : Nat) : List Nat :=
  (s.upLinks p).filter (fun l => !(s.link l).draining && s.linkRoom l c)

/-- The response that a packet gets when a port cannot or need not carry it (R319, R330, R331), stamped now; `none` where it
gets none. -/
def pktAnswer (x : Packet) (st : Status) (word : Word64) (stamp : Nat) : Option Packet :=
  match x with
  | .put m _ => some (.resp m.src m.tag st 0 stamp)
  | .credit m _ _ => some (.resp m.src m.xfer st (if st = 0 then word else setBits 0 63 48 st.toNat) stamp)
  | _ => none

/-- A packet is put on the network of this chip. -/
def State.inject (s : State) (x : Packet) : State := (s.setNet (s.net ++ [x]))

/-- The answer of a packet goes on its way. -/
def State.answerPkt (s : State) (m : NetPkt) (st : Status) (word : Word64) : State :=
  match pktAnswer m.pkt st word s.stamp with
  | some x => s.inject x
  | none => s

/-- A packet is dropped for want of a route: counted, and answered with GS_0C04 (R319, R330). -/
def State.dropPkt (s : State) (m : NetPkt) : State := (s.satInc R.LNK_DROP_CNT 31 0).answerPkt m 0x0C04 0

/-- A packet leaves for an older partner, translated at the port (R273, R331, R332). -/
def State.olderSend (s : State) (p gen : Nat) (m : NetPkt) : State :=
  match m.pkt with
  | .put x _ =>
    let a := x.core.toNat * 0x40_0000 + x.off.toNat
    let s := if x.data = [] ∧ gen = 1 then s else s.lnkSend (.olderWrite p a x.data (x.final && gen == 2))
    if x.final ∧ gen = 1 then s.lnkSend (.olderFence p) else s
  | .credit _ _ ret => s.answerPkt m 0 (if ret then 0 else BitVec.ofNat 64 (16 * 2 ^ 32))
  | .resp _ _ st _ _ => s.lnkSend (.olderAck p (st == 0))
  | .ctl kind _ words => s.lnkSend (.olderCtl p kind words)
  | .write .. | .read .. | .engine .. => s.dropPkt m

/-- A flit with a port sequence number goes out on one of the links, striped by lanes (R313, R324). -/
def State.flitTo (s : State) (q : Nat) (x : Option NetPkt) (ls : List Nat) : State :=
  let lanes := ls.flatMap (fun l => List.replicate (s.fld (R.LNK_STAT l) 57 56) l)
  let l := (if lanes = [] then ls else lanes).getD (q % (if lanes = [] then ls.length else lanes.length)) 0
  (s.modLink l (fun r => { r with unacked := r.unacked ++ [(q, x)] })).lnkSend (.flit l q x)

/-- A packet takes the port's next sequence number. -/
def State.flitOut (s : State) (p : Nat) (m : NetPkt) (ls : List Nat) : State :=
  let q := (s.port p).tx
  (s.flitTo q (some m) ls).modPort p (fun x => { x with tx := (q + 1) % 65536 })

/-- A packet leaves by port `p`, which has links that take it. -/
def State.sendOn (s : State) (p : Nat) (m : NetPkt) (ls : List Nat) : State :=
  match s.portPartner p with
  | some (chip, gen) =>
    if gen < 3 then (if m.dst.toNat = chip then s.olderSend p gen m else s.dropPkt m) else s.flitOut p m ls
  | none => s.flitOut p m ls

/-- A sleeping link wakes: the wake pattern, then the resume with kept settings from ALIGN on (R329). -/
def State.wakeLink (s : State) (l : Nat) : State :=
  let s := (s.setLinkState l 2).lnkSend (.wakePattern l)
  s.modLink l (fun r => { r with phase := 4, since := s.ns, resume := true, silence := some s.ns })

/-- A port with packets queued whose links all sleep wakes its lowest-numbered one (R329). -/
def State.wakePort (s : State) (p : Nat) : State :=
  match s.linksOf p with
  | [] => s
  | l :: r =>
    if (l :: r).all (fun l => s.linkState l == 6) ∧ ((s.port p).wait ≠ [] ∨ (s.port p).again ≠ []) then s.wakeLink l else s

/-- A packet waits at a port without an UP link (R319). -/
def State.portWait (s : State) (p : Nat) (m : NetPkt) : State :=
  (s.modPort p (fun x => { x with wait := x.wait ++ [(m, s.ns)] })).wakePort p

/-- A packet reaches its output port: it leaves unless packets of its channel wait before it (R317). -/
def State.toPort (s : State) (p : Nat) (m : NetPkt) : State :=
  let ls := s.openLinks p (chanOf m)
  if ls ≠ [] ∧ (s.port p).wait.all (fun e => chanOf e.1 ≠ chanOf m) then s.sendOn p m ls else s.portWait p m

/-- The input of an output port that a packet comes from (R318). -/
def inputOf (m : NetPkt) : Nat := match m.inPort with | some q => q.val + 1 | none => 0

/-- The packet that leaves next among those whose channel has room (R318): the oldest of the input that has sent the fewest
bytes while packets wait. -/
def State.portNext (s : State) (p : Nat) : Option (NetPkt × Nat) :=
  let x := s.port p
  let served (e : NetPkt × Nat) : Nat := Sparse.get (fun _ => 0) x.served (inputOf e.1)
  (x.wait.filter (fun e => !(s.openLinks p (chanOf e.1)).isEmpty)).foldl (fun (b : Option (NetPkt × Nat)) e =>
    match b with
    | none => some e
    | some d => if served e < served d then some e else b) none

/-- What waits at a port leaves while links take it: first the flits of links that went down (R318, R319, R325). -/
def State.drainPort (s : State) (p : Nat) : Nat → State
  | 0 => s
  | n + 1 =>
    match (s.port p).again with
    | ((q, x), _) :: r =>
      let ls := s.openLinks p (flitChan x)
      if ls = [] then s else ((s.modPort p (fun y => { y with again := r })).flitTo q x ls).drainPort p n
    | [] =>
      match s.portNext p with
      | none => s
      | some e =>
        let take (x : PortRec) : PortRec :=
          let w := x.wait.erase e
          let i := inputOf e.1
          { x with
            wait := w
            served := if w = [] then [] else
              Sparse.set (fun _ => 0) x.served i (Sparse.get (fun _ => 0) x.served i + netBytes e.1.pkt) }
        ((s.modPort p take).sendOn p e.1 (s.openLinks p (chanOf e.1))).drainPort p n

/-- Drain a port. -/
def State.drainAll (s : State) (p : Nat) : State := s.drainPort p ((s.port p).wait.length + (s.port p).again.length)

/-- Drain the port of a link. -/
def State.drainFor (s : State) (l : Nat) : State :=
  match s.linkPort l with
  | some p => s.drainAll p
  | none => s

/-! ## Leaving UP (R314, R325, R327) -/

/-- A link of a port has left UP: links in MISMATCH train again when none is UP (R314). -/
def State.leftUp (s : State) (l : Nat) : State :=
  match s.linkPort l with
  | some p =>
    if s.upLinks p = [] then
      ((s.linksOf p).filter (fun j => s.linkState j == 8)).foldl (fun s j => s.detect j false) s
    else s
  | none => s

/-- The unacknowledged flits of a link are sent again on the port's other links under their own numbers, or wait (R325). -/
def State.resend (s : State) (l : Nat) : State :=
  let fl := (s.link l).unacked
  let s := s.modLink l (fun r => { r with unacked := [], replays := 0 })
  match s.linkPort l with
  | some p => (fl.foldl (fun s x =>
      let ls := s.openLinks p (flitChan x.2)
      if ls = [] then s.modPort p (fun y => { y with again := y.again ++ [(x, s.ns)] }) else s.flitTo x.1 x.2 ls) s).wakePort p
  | none => s

/-- A down event (R325, R364): reported, and the link trains again. -/
def State.linkDown (s : State) (l : Nat) : State :=
  let s := (((s.satInc (R.LNK_DOWN l) 31 0).lnkSend (.downReport l)).linkIdle l 4).lnkSend (.pattern l)
  let s := s.modLink l (fun r => { r with
    phase := 0, since := s.ns, silence := some s.ns, draining := false, resume := false, proposed := false })
  let s := (s.resend l).leftUp l
  match s.linkPort l with
  | some p => if s.upLinks p = [] then s.portLost p else s
  | none => s

/-- LINK_DOWN (R325): the eighth replay of one flit, or an event on the lanes. -/
def execLinkDown (l : LinkId) (cause : DownCause) (s : State) : Out :=
  .next (
    let ok : Bool := match cause with | .replays => decide (8 ≤ (s.link l.val).replays) | _ => true
    if (s.linkState l.val = 3) ∧ ok = true then s.linkDown l.val else s)

/-! ## Training (R321 to R323) -/

/-- A link enters MISMATCH, logged with both chip ids (R314). -/
def State.mismatch (s : State) (l chip partner : Nat) : State :=
  ((s.logEvent schedProc 0x0105 1 [chip, partner]).linkIdle l 8).modLink l (fun r => { r with phase := 0, resume := false })

/-- A failed attempt ends with a reason (R321, R323). Reason 0x07 leaves the link in MISMATCH, with no attempt to follow. -/
def State.linkFail (s : State) (l reason : Nat) : State :=
  let st := R.LNK_STAT l
  let s := s.setFld st 15 8 reason
  let n := if reason = 1 then s.fld st 23 16 else min 255 (s.fld st 23 16 + 1)
  let s := s.setFld st 23 16 n
  if reason = 7 then s
  else if reason ≠ 1 ∧ max 1 (s.fld (R.LNK_CTL l) 11 8) ≤ n then
    (((s.modLink l (fun r => { r with phase := 0, resume := false, silence := none })).logEvent schedProc 0x0106 1 [l])).capUpdate
      (fun s => (s.linkIdle l 7).modLink l (fun r => { r with degraded := true }))
  else
    let wait := (if reason = 1 then 1000000 else min 16000000 (1000000 * 2 ^ (n - 1))) + s.chipId % 64 * 16000
    (s.linkIdle l 2).modLink l (fun r => { r with phase := 6, retryAt := s.ns + wait, resume := false })

/-- The limit of a training phase in ns, and the reason of a failure by it (R321). -/
def State.phaseLimit (s : State) (l : Nat) : Nat → Nat × Nat
  | 1 => (1000000, 2)
  | 2 => (100000, 6)
  | 3 => (if s.fld (R.LNK_STAT l) 59 58 = 3 then 10000000 else 5000000, 3)
  | 4 => (1000000, 4)
  | _ => (1000000, 5)

/-- LINK_PHASE_TIMEOUT (R321, R329): phase `ph` (0 HELLO to 4 VERIFY) has exceeded its limit; a resume that fails goes to full training. -/
def execLinkPhaseTimeout (l : LinkId) (ph : Fin 5) (s : State) : Out :=
  .next (
    let r := s.link l.val
    let lim := s.phaseLimit l.val r.phase
    if s.linkState l.val ≠ 2 ∨ r.phase ≠ ph.val + 1 ∨ s.ns < r.since + lim.1 then s
    else if r.resume then s.detect l.val false
    else s.linkFail l.val lim.2)

/-- Enter a training phase. -/
def State.enterPhase (s : State) (l ph : Nat) : State := s.modLink l (fun r => { r with phase := ph, since := s.ns })

/-- The hello of a partner (R314, R321): its fields are recorded; another chip or generation than the port's is a mismatch;
else the link goes on to RATE at the highest generation that both ends offer. -/
def State.hello (s : State) (l p : Nat) (m : Hello) : State :=
  let st := R.LNK_STAT l
  let s := ((s.setFld st 47 34 m.chip.toNat).setFld st 33 30 m.link.val).setFld st 29 28 m.gen.toNat
  let gen := min m.gen.toNat (s.fld (R.LNK_PORT p) 12 11)
  let go (s : State) : State :=
    if gen = 0 then s.linkFail l 6
    else ((s.setFld st 59 58 gen).modLink l (fun r => { r with pass := s.laneMask l &&& m.lanes.toNat })).enterPhase l 2
  match s.portPartner p with
  | some (chip, g) =>
    if chip ≠ m.chip.toNat then (s.linkFail l 7).mismatch l chip m.chip.toNat
    else if gen ≠ 0 ∧ g ≠ gen then s.mismatch l chip m.chip.toNat
    else go s
  | none => go s

/-- The partner's pattern in RATE, EQUALIZE or ALIGN: the phase passes on the lanes it names (R321). -/
def State.phasePassed (s : State) (l lanes : Nat) : State :=
  let r := s.link l
  let m := r.pass &&& lanes
  if r.phase = 2 ∨ r.resume then s.enterPhase l (r.phase + 1)
  else if m = 0 then s
  else (s.modLink l (fun r => { r with pass := m })).enterPhase l (r.phase + 1)

/-- HELLO_RECEIVED (R321, R322): in DETECT a pattern or hello stops the silence timer and starts HELLO; in HELLO the hello
moves the link on; in RATE, EQUALIZE and ALIGN the partner's pattern does; from PARTNER_ABSENT it leads to DETECT. A link
in no port does not train (R313). -/
def execHelloReceived (l : LinkId) (m : Hello) (s : State) : Out :=
  .next (
    let l := l.val
    let st := s.linkState l
    let ph := (s.link l).phase
    match (if s.variant.link l = false ∨ (s.link l).untested then none else s.linkPort l) with
    | none => s
    | some p =>
      if st = 1 ∨ st = 4 then
        ((s.setLinkState l 2).lnkSend (.hello l s.chipId l (s.fld (R.LNK_PORT p) 12 11) (s.laneMask l))).modLink l
          (fun r => { r with phase := 1, since := s.ns, silence := none })
      else if st = 5 then s.detect l false
      else if st = 2 ∧ ph = 1 ∧ m.hello then s.hello l p m
      else if st = 2 ∧ 2 ≤ ph ∧ ph ≤ 4 ∧ m.hello = false then s.phasePassed l m.lanes.toNat
      else s)

/-- A link is UP on lanes `m` and carries traffic; both lanes make it PRESENT again (R326). -/
def State.linkRuns (s : State) (l m : Nat) : State :=
  let st := R.LNK_STAT l
  let n := laneCount m
  let s := (((s.setLinkState l 3).setFld st 57 56 n).setFld st 55 54 n).setFld st 23 16 0
  let s := s.modLink l (fun r => { r with phase := 0, resume := false, silence := none, replays := 0 })
  let s := if n = 2 ∧ ((s.link l).degraded ∨ (s.link l).dropped ≠ 0) then
      s.capUpdate (fun s => s.modLink l (fun r => { r with degraded := false, dropped := 0 }))
    else s.modLink l (fun r => { r with dropped := r.dropped &&& (3 - m) })
  s.drainFor l

/-- A link passes VERIFY on lanes `m` (R314, R321, R326): it is UP, unless its port meanwhile has another partner. -/
def State.linkUp (s : State) (l p m : Nat) : State :=
  let st := R.LNK_STAT l
  let own := (s.fld st 47 34, s.fld st 59 58)
  match s.portPartner p with
  | some x =>
    if x ≠ own then (s.setFld st 15 8 7).mismatch l x.1 own.1 else s.linkRuns l m
  | none => s.linkRuns l m

/-- TRAINING_COMPLETE (R321, R323, R329): the link passes VERIFY, whose test flits take 100 µs of a full training. -/
def execTrainingComplete (l : LinkId) (lanes : BitVec 2) (s : State) : Out :=
  .next (
    let l := l.val
    let r := s.link l
    let m := lanes.toNat &&& (if r.resume then s.laneMask l else r.pass)
    if s.linkState l ≠ 2 ∨ r.phase ≠ 5 ∨ m = 0 ∨ (r.resume = false ∧ s.ns < r.since + 100000) then s
    else
      match s.linkPort l with
      | some p => s.linkUp l p m
      | none => s)

/-- Whether a command is a partner's pattern or hello at link `l`. -/
def isHello (l : LinkId) : Instr → Bool
  | .helloReceived j _ => decide (j = l)
  | _ => false

/-- PARTNER_ABSENT (R322): the silence timer reaches 100 ms. A pattern that comes in this tick wins. -/
def execPartnerAbsent (l : LinkId) (s : State) : Out :=
  .next (
    let st := s.linkState l.val
    match (s.link l.val).silence with
    | some t =>
      if (st = 1 ∨ st = 2 ∨ st = 4) ∧ t + 100000000 ≤ s.ns ∧ s.pending.any (isHello l) = false then
        (s.linkIdle l.val 5).modLink l.val (fun r => { r with phase := 0, silence := none, resume := false })
      else s
    | none => s)

/-- TRAINING_RETRY (R323): the wait after a failed attempt ends. -/
def execTrainingRetry (l : LinkId) (s : State) : Out :=
  .next (
    let l := l.val
    let r := s.link l
    if r.phase ≠ 6 ∨ s.linkState l ≠ 2 ∨ s.ns < r.retryAt ∨ s.linkPort l = none then s else s.detect l false)

/-- LOSS_OF_SIGNAL (R321, R322, R329): the silence timer restarts; in HELLO to VERIFY the attempt ends with reason 0x01, and
a resume goes to full training. -/
def execLossOfSignal (l : LinkId) (s : State) : Out :=
  .next (
    let l := l.val
    let r := s.link l
    let st := s.linkState l
    let t := s.modLink l (fun r => { r with silence := some s.ns })
    if st = 2 ∧ 1 ≤ r.phase ∧ r.phase ≤ 5 then (if r.resume then t.detect l false else t.linkFail l 1)
    else if st = 1 ∨ st = 2 ∨ st = 4 then t
    else s)

/-! ## Running links (R324, R326) -/

/-- A SLEEP whose flits are all acknowledged is complete (R327); packets that wait wake a port that sleeps (R329). -/
def State.settleSleep (s : State) (l : Nat) : State :=
  if (s.link l).draining ∧ (s.link l).unacked = [] then
    let s := (((s.setLinkState l 6).lnkSend (.sleepSet l)).modLink l (fun r => { r with draining := false })).leftUp l
    match s.linkPort l with
    | some p => s.wakePort p
    | none => s
  else s

/-- Flits before a sequence number are acknowledged on every link of the port (R324). -/
def State.acked (s : State) (l q : Nat) : State :=
  let ls := match s.linkPort l with | some p => s.linksOf p | none => [l]
  let behind (x : Nat) : Bool := decide (0 < (q + 65536 - x) % 65536 ∧ (q + 65536 - x) % 65536 ≤ 32768)
  let s := match s.linkPort l with
    | some p => s.modPort p (fun y => { y with again := y.again.filter (fun x => !behind x.1.1) })
    | none => s
  let s := ls.foldl (fun s j =>
    let u : List (Nat × Option NetPkt) := (s.link j).unacked
    let u' : List (Nat × Option NetPkt) := u.filter (fun x => !behind x.1)
    let s := if u'.length < u.length then
        s.modLink j (fun r => { r with unacked := u', replays := if u'.head? = u.head? then r.replays else 0 })
      else s
    s.settleSleep j) s
  s.drainFor l

/-- A packet that a flit brought waits to be routed (R324). -/
def State.arrived (s : State) (p : Nat) (x : Option NetPkt) : State :=
  match x with
  | some m => s.modPort p (fun y => { y with inq := y.inq ++ [{ m with inPort := some ⟨p % 4, Nat.mod_lt _ (by omega)⟩ }] })
  | none => s

/-- FLIT_RECEIVE (R324, R337): FEC counts; a flit in sequence is delivered and acknowledged, one delivered before is
acknowledged again, and one that fails its CRC or leaves a gap is negatively acknowledged. -/
def execFlitReceive (l : LinkId) (m : Flit) (s : State) : Out :=
  .next (
    let l := l.val
    if s.linkState l ≠ 3 then s
    else
      let s := (s.satInc (R.LNK_FEC_CORR l) 63 0 m.corr).satInc (R.LNK_FEC_UNC l) 31 0 m.unc
      match s.linkPort l with
      | none => s
      | some p =>
        let rx := (s.port p).rx
        let q := m.seq.toNat
        if m.ok = false then s.lnkSend (.nak l rx)
        else
          let s := s.acked l m.ack.toNat
          if q = rx then
            ((s.modPort p (fun x => { x with rx := (rx + 1) % 65536 })).arrived p m.pkt).lnkSend (.ack l ((rx + 1) % 65536))
          else if (q + 65536 - rx) % 65536 < 32768 then s.lnkSend (.nak l rx)
          else s.lnkSend (.ack l rx))

/-- Every unacknowledged flit of a link is sent again (R324). -/
def State.replay (s : State) (l : Nat) : State :=
  let u := (s.link l).unacked
  if u = [] then s
  else
    let s := (s.satInc (R.LNK_RETRY l) 31 0 u.length).modLink l (fun r => { r with replays := r.replays + 1 })
    u.foldl (fun s x => s.lnkSend (.flit l x.1 x.2)) s

/-- FLIT_NAK (R324): the partner wants the port's flits from `seq` on; the link replays from its first unacknowledged
flit. -/
def execFlitNak (l : LinkId) (seq : BitVec 16) (s : State) : Out :=
  .next (if s.linkState l.val ≠ 3 then s else (s.acked l.val seq.toNat).replay l.val)

/-- The lanes of a link that are up, as a mask: those not dropped among those that trained. -/
def State.upMask (s : State) (l : Nat) : Nat :=
  let m := s.laneMask l &&& (3 - (s.link l).dropped)
  if laneCount m = s.fld (R.LNK_STAT l) 57 56 then m else if s.fld (R.LNK_STAT l) 57 56 = 2 then 3 else m

/-- A link goes on with the lanes of a mask (R326); none left is a down event. -/
def State.keepLanes (s : State) (l kept : Nat) : State :=
  let gone := s.upMask l &&& (3 - kept)
  if kept = 0 then s.linkDown l
  else if gone = 0 then s
  else
    let s := (s.satInc (R.LNK_LDROP l) 31 0 (laneCount gone)).setFld (R.LNK_STAT l) 57 56 (laneCount kept)
    let s := s.capUpdate (fun s => s.modLink l (fun r => { r with dropped := r.dropped ||| gone, degraded := true }))
    let ls := (List.range 16).filter (fun j => s.variant.link j)
    let left := sumOf (ls.map (fun j => 2 - laneCount (s.link j).dropped))
    (s.qosFall 3 s.partsLive left (2 * ls.length)).replay l

/-- Note whether a lane-drop set of this end is unanswered. -/
def State.setProposed (s : State) (l : Nat) (x : Bool) : State := s.modLink l (fun r => { r with proposed := x })

/-- LANE_DROP (R326): this end finds a lane faulty and proposes the lanes it keeps. -/
def execLaneDrop (l : LinkId) (lane : Fin 2) (s : State) : Out :=
  .next (
    let l := l.val
    let up := s.upMask l
    if s.linkState l ≠ 3 ∨ up.testBit lane.val = false then s
    else
      let kept := up &&& (3 - 2 ^ lane.val)
      (if kept = 0 then s else (s.lnkSend (.laneDrop l kept)).setProposed l true).keepLanes l kept)

/-- LANE_DROP_RECEIVED (R326): the partner names the lanes it keeps. To a proposal this end replies with those that it
keeps; where this end has proposed, it is the reply, or the proposal of the same round. Both ends keep the intersection. -/
def execLaneDropReceived (l : LinkId) (kept : BitVec 2) (s : State) : Out :=
  .next (
    let l := l.val
    let both := s.upMask l &&& kept.toNat
    if s.linkState l ≠ 3 then s
    else if (s.link l).proposed then (s.setProposed l false).keepLanes l both
    else (s.lnkSend (.laneDrop l both)).keepLanes l both)

/-! ## Sleep and wake (R327 to R329) -/

/-- Whether a link is the last UP link of a port that Chorus needs (R327). -/
def State.chorusNeeds (s : State) (l : Nat) : Bool :=
  match s.linkPort l with
  | none => false
  | some p =>
    let parent := decide (s.fld R.CHR_CFG 29 28 = p)
    let backup := s.bitOf R.CHR_CFG 27 && decide (s.fld R.CHR_CFG 26 25 = p)
    (s.upLinks p == [l]) && (parent || backup || s.bitOf R.CHR_CFG (21 + p))

/-- A link in UP stops taking flits, and sleeps once every flit is acknowledged (R327). -/
def State.beginSleep (s : State) (l : Nat) : State :=
  (s.modLink l (fun r => { r with draining := true, since := s.ns })).settleSleep l

/-- SLEEP_ORDERED_SET (R327): the partner sleeps, and this end with it. -/
def execSleepOrderedSet (l : LinkId) (s : State) : Out := .next (if s.linkState l.val = 3 then s.beginSleep l.val else s)

/-- WAKE_DETECT (R322, R329): a sleeping link resumes, one whose partner was absent trains, and a SLEEP accepted in this
tick is abandoned. A link in no port does not train (R313). -/
def execWakeDetect (l : LinkId) (s : State) : Out :=
  .next (
    let st := s.linkState l.val
    if (st = 6 ∨ st = 5) ∧ s.linkPort l.val = none then s
    else if st = 6 then s.wakeLink l.val else if st = 5 then s.detect l.val false
    else if st = 3 ∧ (s.link l.val).draining ∧ (s.link l.val).since = s.ns then
      (s.modLink l.val (fun r => { r with draining := false })).setBitOf (R.LNK_STAT l.val) 53
    else s)

/-- The operations of LNK_CTL_l.OP (R335); `quiet` is false when a wake event comes in the tick that accepts a SLEEP
(R329). A status means the write is discarded. -/
def State.lnkOp (s : State) (l op : Nat) (quiet : Bool) : State × Status :=
  let st := s.linkState l
  match op with
  | 0 => (s, 0)
  | 1 =>
    if (st = 0 ∨ st = 7) ∧ (s.linkPort l).isSome ∧ (s.link l).untested = false then
      (s.detect l true |>.setFld (R.LNK_STAT l) 23 16 0, 0)
    else (s, 0x0C02)
  | 2 =>
    let s := (s.linkIdle l 0).modLink l (fun r => { r with
      phase := 0, silence := none, resume := false, draining := false, proposed := false })
    ((s.resend l).leftUp l, 0)
  | 3 =>
    if st = 0 ∨ (s.linkPort l).isNone ∨ (s.link l).untested then (s, 0x0C02)
    else
      let s := s.detect l true |>.setFld (R.LNK_STAT l) 23 16 0
      ((s.resend l).leftUp l, 0)
  | 4 =>
    if st ≠ 3 then (s, 0x0C02)
    else if s.chorusNeeds l then (s, 0x0C03)
    else if quiet then (s.beginSleep l, 0)
    else (s.setBitOf (R.LNK_STAT l) 53, 0)
  | 5 => if st = 6 ∧ (s.linkPort l).isSome then (s.wakeLink l, 0) else (s, 0x0C02)
  | _ => (s, 0x0C01)

/-- Write LNK_CTL_l (R335): a discarded write changes no field; a SLEEP that Chorus refuses is counted (R462). -/
def State.wrLnkCtl (s : State) (l : Nat) (v : Word64) (quiet : Bool) : State :=
  let x := s.lnkOp l (bits v 31 29) quiet
  if x.2 ≠ 0 then
    let s := if x.2 = 0x0C03 then (s.satInc (R.PWR_RCNT (0x350 + l)) 15 0).setFld (R.PWR_RCNT (0x350 + l)) 31 28 6 else s
    s.regErr (R.LNK_CTL l) x.2
  else (x.1.setFld (R.LNK_CTL l) 11 8 (bits v 11 8)).setFld (R.LNK_CTL l) 1 0 (bits v 1 0)

/-! ## Routing (R316 to R319) -/

/-- A routed packet leaves the network, or the port that it came in by. -/
def State.leaveNet (s : State) (m : NetPkt) : State :=
  match m.inPort with
  | none => s.taken m.pkt
  | some q => s.modPort q.val (fun x => { x with inq := x.inq.erase m })

/-- Whether a hop by port `p` crosses the wrap link of its dimension, and whether it stays in the dimension of the port
the packet came in by (R317). -/
def State.hopCrossed (s : State) (p : Nat) (m : NetPkt) : Bool :=
  let d := s.fld (R.LNK_PORT p) 15 13
  let x := s.fld R.LNK_TOPO 27 14
  let y := s.fld R.LNK_TOPO 13 0
  let wrapHop := (d == 1 && decide (x + 1 = s.xdim)) || (d == 2 && decide (x = 0)) || (d == 3 && decide (y + 1 = s.ydim)) ||
    (d == 4 && decide (y = 0))
  let same : Bool := match m.inPort with
    | some q => let e := s.fld (R.LNK_PORT q.val) 15 13; (decide (e ≤ 2) && decide (d ≤ 2)) || (decide (3 ≤ e) && decide (3 ≤ d))
    | none => false
  wrapHop || (same && m.crossed)

/-- The port by which a packet leaves, and what it carries on (R316, R361): an engine packet takes the next hop of its
route; `none` where no port serves its chip. -/
def State.hop (s : State) (m : NetPkt) : Option (Nat × Packet) :=
  match m.pkt with
  | .engine d (p :: r) x => some (p.val, .engine d r x)
  | x => (s.outPort m.dst.toNat).map (fun p => (p, x))

/-- Whether a packet has hops of its route to come (R361). -/
def onRoute : Packet → Bool
  | .engine _ (_ :: _) _ => true
  | _ => false

/-- Route a packet (R316, R361): into the inbound path, or to its output port. A chip id that resolves to no port is
dropped. -/
def State.route (s : State) (m : NetPkt) : State :=
  if m.dst.toNat = s.chipId ∧ onRoute m.pkt = false then (if m.inPort.isNone then s else (s.leaveNet m).inject m.pkt)
  else
    let s1 := s.leaveNet m
    match s.hop m with
    | some (p, x) => s1.toPort p { m with pkt := x, crossed := s.hopCrossed p m }
    | none => s1.dropPkt m

/-- PACKET_ROUTE (R316). -/
def execPacketRoute (m : NetPkt) (s : State) : Out := .next (s.route m)

/-- TRANSIT_FORWARD (R318): a packet for another chip that came in by port `p`. -/
def execTransitForward (p : Fin 4) (m : NetPkt) (s : State) : Out :=
  .next (if m.dst.toNat = s.chipId ∧ onRoute m.pkt = false then s else s.route { m with inPort := some p })

/-- HOLD of a port in ns (R319, R338). -/
def State.holdNs (s : State) (p : Nat) : Nat := min 1000 (max 1 (s.fld (R.LNK_PORT p) 9 0)) * 1000

/-- PORT_HOLD_EXPIRY (R319): what waits longest at a port without an UP link is dropped, and answered with GS_0C04. The
number of a flit that had been sent before stays, without its packet. -/
def execPortHoldExpiry (p : Fin 4) (s : State) : Out :=
  .next (
    let due (t : Nat) : Bool := decide (t + s.holdNs p.val ≤ s.ns)
    let old (e : (Nat × Option NetPkt) × Nat) : Bool := e.1.2.isSome && due e.2
    if s.upLinks p.val ≠ [] then s
    else
      match (s.port p.val).again.find? old with
      | some ((q, some m), t) =>
        (s.modPort p.val (fun x => { x with again := modifyFirst (· == ((q, some m), t)) (fun e => ((e.1.1, none), e.2)) x.again })).dropPkt m
      | _ =>
        match (s.port p.val).wait with
        | [] => s
        | (m, t) :: r => if due t then (s.modPort p.val (fun x => { x with wait := r })).dropPkt m else s)

/-! ## Older partners (R332) -/

/-- The window of a port that an older write matches. -/
def State.cwin (s : State) (p a : Nat) : Option Nat :=
  (List.range 8).find? (fun w => s.bitOf (R.LNK_CWIN_A p w) 63 && decide (s.fld (R.LNK_CWIN_B p w) 47 22 = a / 0x40_0000))

/-- The source that a grant for a port records: the older partner's chip, and the port for the core. -/
def State.portSource (s : State) (p : Fin 4) : Source :=
  ⟨BitVec.ofNat 14 (match s.portPartner p.val with | some (c, _) => c | none => 0), ⟨p.val, by omega⟩, 0⟩

/-- The partition that a window's grant serves (R332, R341): the one whose logical core CORE holds the grant that TAG and
CGEN name, recorded for the port; `none` where no partition has it. -/
def State.windowPart (s : State) (p : Fin 4) (w : Nat) : Option Nat :=
  let a := s.reg (R.LNK_CWIN_A p.val w)
  partIds.find? (fun q => s.bitOf (R.MMU_PCFG q) 63 && (match s.partCore q (bits a 41 32) with
    | some k =>
      (s.core k).grantIs (bits a 27 20) (BitVec.ofNat 4 (bits a 31 28)) (s.portSource p) &&
        s.boundOwns k (((s.core k).grant (bits a 27 20)).first * 4096) 1 (some q)
    | none => false))

/-- The put that a window makes (R332). EXPECT has 12 bits: a group of more than 4,095 writes has EXPECT 0. -/
def State.windowPut (s : State) (p : Fin 4) (w : Nat) (off : Nat) (final : Bool) (data : List TByte) : PutMsg :=
  let a := s.reg (R.LNK_CWIN_A p.val w)
  let b := s.reg (R.LNK_CWIN_B p.val w)
  let job := (s.windowPart p w).map (fun q => BitVec.ofNat 16 (s.fld (R.MMU_PJOB q) 15 0))
  let n := Sparse.get (fun _ => 0) (s.port p.val).mapped w
  let ctl := bits a 15 0 * 2 ^ 32 + bits b 3 0 * 2 ^ 28 + bits a 31 28 * 2 ^ 12 + bits a 27 20 +
    (if final then bits b 15 4 * 2 ^ 52 + n % 4096 * 2 ^ 16 else 0)
  ⟨s.portSource p, job, BitVec.ofNat 10 (bits a 41 32), BitVec.ofNat 22 off, BitVec.ofNat 64 ctl, final, data, s.stamp, 0⟩

/-- COMPAT_WRITE (R332): the writes that match the window are counted up to the first that a group cannot hold. -/
def execCompatWrite (p : Fin 4) (addr : BitVec 48) (data : List Byte) (s : State) : Out :=
  .next (
    let drop (s : State) : State := (s.satInc R.LNK_COMPAT_DROP_CNT 31 0).lnkSend (.olderAck p.val false)
    match s.cwin p.val addr.toNat with
    | none => drop s
    | some w =>
      let off := addr.toNat % 0x40_0000
      let n := Sparse.get (fun _ => 0) (s.port p.val).mapped w
      if padSize < off + data.length then drop s
      else
        let t := s.modPort p.val (fun x => { x with mapped := Sparse.set (fun _ => 0) x.mapped w (min 4096 (n + 1)) })
        if 4095 ≤ n then drop t else t.inject (.put (s.windowPut p w off false (carried data)) s.chipId))

/-- COMPAT_GROUP_END (R332): a PUTF of 0 B, and the window's next generation. -/
def execCompatGroupEnd (p : Fin 4) (w : Fin 8) (s : State) : Out :=
  .next (
    if s.bitOf (R.LNK_CWIN_A p.val w.val) 63 = false then s
    else
      let m := s.windowPut p w.val 0 true []
      let s := s.inject (.put m s.chipId)
      let s := s.modPort p.val (fun x => { x with mapped := Sparse.set (fun _ => 0) x.mapped w.val 0 })
      s.wrapInc (R.LNK_CWIN_B p.val w.val) 3 0)

/-! ## Bridges (R20) -/

/-- Consecutive failed replays of a bridge. -/
def State.bridgeFails (s : State) (b : Nat) : Nat := Sparse.get (fun _ => 0) s.sys.bridges b

/-- BRIDGE_FLIT_REPLAY (R20): a flit that failed its CRC is replayed; `ok` says whether this replay succeeds. -/
def execBridgeFlitReplay (b : Fin 3) (ok : Bool) (s : State) : Out :=
  .next (
    let m := Sparse.set (fun _ => 0) s.sys.bridges b.val (if ok then 0 else min 16 (s.bridgeFails b.val + 1))
    (s.setSys { s.sys with bridges := m }))

/-- BRIDGE_FAILED (R20): after 16 consecutive failed replays of one flit the bridge declares itself failed. -/
def execBridgeFailed (b : Fin 3) (s : State) : Out :=
  .next (
    if s.bridgeFails b.val < 16 ∨ b.val ∈ s.sys.deadBr then s
    else (s.setSys { s.sys with deadBr := s.sys.deadBr ++ [b.val] }))

end Sys2Proof.Machine
end

