-- ==== Sys2Proof/Machine/Leapfrog.lean ====
section
/-!
DEFINITION. The Leapfrog engine's channels and descriptors (R343 to R348, R373), SHIFT and PERMUTE (R349 to R358), and
engine messages (R362).
-/

namespace Sys2Proof.Machine

/-! ## Channels (R343, R344, R373) -/

/-- Descriptors a channel's ring holds. -/
def State.lfSize (s : State) (ch : Nat) : Nat := 2 ^ s.fld (R.LF_CH_CFG ch) 3 0

/-- LF_CH_PTR_c.HEAD. -/
def State.lfHead (s : State) (ch : Nat) : Nat := s.fld (R.LF_CH_PTR ch) 15 0

/-- LF_CH_PTR_c.TAIL. -/
def State.lfTail (s : State) (ch : Nat) : Nat := s.fld (R.LF_CH_PTR ch) 31 16

/-- LF_CH_CFG_c.STATE: 0 IDLE, 1 ACTIVE, 2 WAITSTART, 3 STOPPED. -/
def State.lfState (s : State) (ch : Nat) : Nat := s.fld (R.LF_CH_CFG ch) 30 28

/-- Set a channel's state. -/
def State.setLfState (s : State) (ch x : Nat) : State := s.setFld (R.LF_CH_CFG ch) 30 28 x

/-- The partition of a channel. -/
def State.lfPart (s : State) (ch : Nat) : Nat := s.fld (R.LF_CH_CFG ch) 23 20

/-- Write LF_CH_DB_c (R344): the descriptors up to an index are announced, or DBERR is set. -/
def State.wrLfDb (s : State) (ch : Nat) (v : Word64) : State :=
  let n := s.lfSize ch
  let x := bits v 15 0
  let out := (s.lfTail ch + n - s.lfHead ch) % n + (x + n - s.lfTail ch) % n
  if s.bitOf (R.LF_CH_CFG ch) 31 = false ∨ n ≤ x ∨ n - 1 < out then s.setBitOf (R.LF_CH_CFG ch) 4
  else
    let s := s.setFld (R.LF_CH_PTR ch) 31 16 x
    if s.lfState ch = 0 ∧ x ≠ s.lfHead ch then s.setLfState ch 1 else s

/-- Write LF_CH_CTL_c (R373): RESUME. -/
def State.wrLfCtl (s : State) (ch : Nat) (v : Word64) : State :=
  if bit v 31 ∧ s.lfState ch = 3 then s.setLfState ch 1
  else s

/-- Write LF_CH_BASE_c (R373). -/
def State.wrLfBase (s : State) (ch : Nat) (v : Word64) : State :=
  if bits v 5 0 ≠ 0 ∨ (s.bitOf (R.LF_CH_CFG ch) 31 ∧ s.reg (R.LF_CH_BASE ch) ≠ v) then s.regErr (R.LF_CH_BASE ch) 0x0D0A
  else s.setReg (R.LF_CH_BASE ch) v

/-! ## Completion (R345, R357) -/

/-- The result word (R346). -/
def resultWord (st : Status) (ind dropped : Nat) : Nat := st.toNat * 2 ^ 48 + ind % 64 * 2 ^ 40 + dropped % 2 ^ 32

/-- Write bytes at a virtual address of a channel's partition; the status of the translation, the checks or the write. -/
def State.lfStore (s : State) (p va : Nat) (b : List Byte) : State × Status :=
  let (s, ps, st) := s.translate .lf 3 p va b.length true
  if st ≠ 0 then (s, st)
  else
    let st := s.piecesAccess .lf ps
    if st ≠ 0 then (s, st) else s.piecesWrite (carried b) ps

/-- Whether the windows among the pieces lie in segments of the partition (R38, R181). -/
def State.lfOwned (s : State) (p : Nat) (ps : List (Nat × Nat)) : Bool :=
  ps.all (fun x => match s.regionOf x.1 x.2 with
    | some (.window k) => s.boundOwns k (winOff x.1) x.2 (some p)
    | _ => true)

/-- The count on a DONE counter (R345); the status says whether it was reached. -/
def State.lfDone (s : State) (p va : Nat) : State × Status :=
  if va = 0 then (s, 0)
  else
    let (s, ps, st) := s.translate .lf 3 p va 8 true
    if st ≠ 0 then (s, st)
    else
      let st := s.piecesAccess .lf ps
      match ps with
      | (a, _) :: _ =>
        if st ≠ 0 then (s, st)
        else if s.lfOwned p ps = false then (s, 0x0102)
        else
          let (s, _, st) := s.countAt a 8 none 1
          (s, st)
      | [] => (s, 0x0101)

/-- A descriptor at slot `idx` completes: result word, DONE count, HEAD, and STOPPED after a failure (R345). -/
def State.lfFinish (s : State) (ch idx done : Nat) (st : Status) (ind dropped : Nat) : State :=
  let p := s.lfPart ch
  let n := s.lfSize ch
  let (s, _) := s.lfStore p ((s.reg (R.LF_CH_BASE ch)).toNat + 64 * idx + 0x38) (leBytes 8 (resultWord st ind dropped))
  let (s, bad) := s.lfDone p done
  let s := if bad ≠ 0 then s.firstErr (R.LF_CH_ERR ch) (BitVec.ofNat 64 (bad.toNat * 2 ^ 48 + idx)) else s
  let s := s.setFld (R.LF_CH_PTR ch) 15 0 ((idx + 1) % n)
  if st ≠ 0 ∨ bad ≠ 0 then s.setLfState ch 3
  else if s.lfState ch = 3 then s
  else s.setLfState ch (if s.lfHead ch = s.lfTail ch then 0 else 1)

/-- The raw bytes of the descriptor at a slot; zeros where it cannot be read. -/
def State.lfFetch (s : State) (ch idx : Nat) : State × List Byte × Status :=
  let (s, ps, st) := s.translate .lf 3 (s.lfPart ch) ((s.reg (R.LF_CH_BASE ch)).toNat + 64 * idx) 64 false
  if st ≠ 0 then (s, List.replicate 64 0#8, st)
  else
    let st := s.piecesAccess .lf ps
    if st ≠ 0 then (s, List.replicate 64 0#8, st)
    else
      let (s, d, st) := s.piecesRead ps
      (s, clean d, st)

/-- Every descriptor from `idx` to TAIL completes with GS_0B07 (R373). -/
def State.lfAbandon (s : State) (ch : Nat) : Nat → Nat → State
  | 0, _ => s
  | n + 1, idx =>
    if idx = s.lfTail ch then s
    else
      let (s, raw, _) := s.lfFetch ch idx
      (s.lfFinish ch idx (leAt raw 0x30 8) 0x0B07 0 0).lfAbandon ch n ((idx + 1) % s.lfSize ch)

/-- EN falls: what has not started completes with GS_0B07 (R373); a running descriptor goes on. -/
def State.lfDisable (s : State) (ch : Nat) : State :=
  let n := s.lfSize ch
  match s.lfRun ch with
  | some r =>
    if r.started then
      let h := s.lfHead ch
      let s := s.lfAbandon ch n ((h + 1) % n)
      (s.setFld (R.LF_CH_PTR ch) 15 0 h).setFld (R.LF_CH_PTR ch) 31 16 ((h + 1) % n)
    else (s.setRun ch none).lfAbandon ch n (s.lfHead ch)
  | none => s.lfAbandon ch n (s.lfHead ch)

/-- Write LF_CH_CFG_c (R373). -/
def State.wrLfCfg (s : State) (ch : Nat) (v : Word64) : State :=
  let a := R.LF_CH_CFG ch
  let old := s.reg a
  let en := bit v 31
  let same := bit v 24 == bit old 24 && bits v 23 20 == bits old 23 20 && bits v 3 0 == bits old 3 0
  if bits v 3 0 < 4 ∨ 12 < bits v 3 0 ∨ (en = true ∧ bit v 24 = false) ∨ (bit old 31 = true ∧ same = false) then
    s.regErr a 0x0D0A
  else
    let s := if bit old 31 ∧ en = false then s.lfDisable ch else s
    let s := ((((s.setFld a 31 31 en.toNat).setFld a 24 24 (bits v 24 24)).setFld a 23 20 (bits v 23 20)).setFld a 3 0 (bits v 3 0))
    let s := if bit v 4 then s.setFld a 4 4 0 else s
    if en = true ∧ bit old 31 = false then (s.setFld (R.LF_CH_PTR ch) 31 0 0).setLfState ch 0 else s

/-! ## Descriptors (R346 to R348) -/

/-- The 8-byte field at offset `o` of a descriptor. -/
def lfWord (raw : List Byte) (o : Nat) : Nat := leAt raw o 8

/-- OP of a descriptor: 1 SHIFT, 2 PERMUTE. -/
def lfOp (raw : List Byte) : Nat := natBits (lfWord raw 0) 63 60

/-- GROUP. -/
def lfGroup (raw : List Byte) : Nat := natBits (lfWord raw 0) 59 54

/-- SEND. -/
def lfSend (raw : List Byte) : Nat := natBits (lfWord raw 0) 53 52

/-- RECV. -/
def lfRecv (raw : List Byte) : Nat := natBits (lfWord raw 0) 51 50

/-- RED. -/
def lfRed (raw : List Byte) : Bool := (lfWord raw 0).testBit 49

/-- SFMT. -/
def lfSfmt (raw : List Byte) : Nat := natBits (lfWord raw 0) 48 45

/-- AFMT. -/
def lfAfmt (raw : List Byte) : Nat := natBits (lfWord raw 0) 44 41

/-- LEN of a SHIFT. -/
def lfLen (raw : List Byte) : Nat := natBits (lfWord raw 8) 24 0

/-- Element size of a PERMUTE. -/
def lfEsize (raw : List Byte) : Nat := natBits (lfWord raw 8) 61 56 + 1

/-- CAP of a PERMUTE. -/
def lfCap (raw : List Byte) : Nat := natBits (lfWord raw 8) 55 32

/-- NELEM of a PERMUTE. -/
def lfNelem (raw : List Byte) : Nat := natBits (lfWord raw 8) 24 0

/-- THRESH, 0 for no start condition. -/
def lfThresh (raw : List Byte) : Nat := natBits (lfWord raw 0x38) 63 48

/-- The START counter's address. -/
def lfStart (raw : List Byte) : Nat := natBits (lfWord raw 0x38) 47 0

/-- Bytes that the elements of a format come in: the least whole number of bytes that holds whole elements. -/
def fmtUnit (c : Nat) : Nat :=
  match Fmt.ofCode c with
  | some f => if f.bitsOf = 6 then 3 else max 1 (f.bitsOf / 8)
  | none => 1

/-- Alignment of a format's elements in bytes; packed formats have none. -/
def fmtAlign (c : Nat) : Nat :=
  match Fmt.ofCode c with
  | some f => max 1 (f.bitsOf / 8)
  | none => 1

/-- The older partner that a send half faces: port, chip and generation (R352). -/
def State.lfBridge (s : State) (entry : List Word64) (next : Bool) (chip : Nat) : Option (Nat × Nat × Nat) :=
  match s.hopPort entry next chip with
  | none => none
  | some p => match s.portPartner p with
    | some (c, g) => if g < 3 then some (p, c, g) else none
    | none => none

/-- The format that a bridge converts to (R352). -/
def bridgeFmt (f : Fmt) (gen : Nat) : Fmt :=
  match f with
  | .e2m1 | .e3m2 | .e2m3 => if gen = 2 then .e4m3 else .bf16
  | .int4 => .int8
  | .e4m3 | .e5m2 => if gen = 2 then f else .bf16
  | _ => f

/-- Alignment of what a bridge writes in a partner's space (R348 check 5, R352). -/
def bridgeAlign (c gen : Nat) : Nat :=
  match Fmt.ofCode c with
  | some f => max 1 ((bridgeFmt f gen).bitsOf / 8)
  | none => 1

/-- Checks 1 to 5 of R348: `older` is the generation of the partner that the send half faces, where it is an older one. -/
def lfStatic (raw : List Byte) (older : Option Nat) : Status :=
  let ctl := lfWord raw 0
  let size := lfWord raw 8
  let src := lfWord raw 0x10
  let dst := lfWord raw 0x18
  let aux := lfWord raw 0x20
  let aux2 := lfWord raw 0x28
  let shift := decide (lfOp raw = 1)
  let red := lfRed raw
  let e := lfEsize raw
  let zeroShift := natBits ctl 39 32 == 0 && natBits size 63 25 == 0 && (lfSend raw != 0 || src == 0) &&
    (lfRecv raw != 0 || dst == 0) && (red || aux == 0) && ((older.isSome && lfSend raw != 0) || aux2 == 0) && (red || lfAfmt raw == 0)
  let zeroPerm := natBits ctl 53 41 == 0 && natBits size 63 62 == 0 && natBits size 31 25 == 0
  let al := fmtAlign (lfSfmt raw)
  let ctrs := lfWord raw 0x30 % 8 == 0 && (lfThresh raw == 0 || lfStart raw % 8 == 0)
  let okShift := decide (1 ≤ lfLen raw) && decide (lfLen raw ≤ 16777216) && lfLen raw % fmtUnit (lfSfmt raw) == 0 &&
    src % al == 0 && dst % al == 0 && aux % al == 0 &&
    (match older with | some g => lfSend raw == 0 || aux2 % bridgeAlign (lfSfmt raw) g == 0 | none => true)
  let okPerm := decide (1 ≤ lfCap raw) && decide (1 ≤ lfNelem raw) && decide (lfNelem raw ≤ 16777216) &&
    decide (lfNelem raw * e ≤ 16777216) && decide (lfCap raw * e ≤ 1048576) && src % e == 0 && dst % e == 0 &&
    aux % 2 == 0 && aux2 % 16 == 0
  (firstOf [
    (decide (lfOp raw = 0) || decide (3 ≤ lfOp raw), (0x0D01 : Status)),
    (ctl.testBit 40 || natBits ctl 31 0 != 0 || (shift && !zeroShift) || (!shift && !zeroPerm), 0x0D02),
    (shift && (lfSend raw == 3 || (lfSend raw == 0 && lfRecv raw == 0) || (red && lfRecv raw == 0)), 0x0D03),
    (shift && (lfSfmt raw == 15 || lfAfmt raw == 15), 0x0202),
    (shift && red && !(lfAfmt raw == 0 || lfAfmt raw == 1 || lfAfmt raw == 9), 0x0204),
    (shift && red && lfSfmt raw != lfAfmt raw, 0x0D03),
    (!ctrs || (shift && !okShift) || (!shift && !okPerm), 0x0D04)]).getD 0

/-- Check 7 of R348, on the live entry. -/
def State.lfGroupCheck (s : State) (ch : Nat) (raw : List Byte) : Status :=
  let g := lfGroup raw
  if s.ringMode g = false ∨ bits (s.grp g 0) 61 58 ≠ ch ∨ (lfOp raw = 2 ∧ (s.lfMembers g).any (fun m => m.1 != 3)) then 0x0D07
  else if s.grpState g = 1 then 0
  else 0x0D06

/-- A range that a descriptor names: virtual address, length and whether it is written. -/
abbrev LfRange := Nat × Nat × Bool

/-- The ranges of a descriptor in the order of check 6: SRC, DST, ACC or IDX, CNTS, START and DONE (R348). -/
def lfRanges (raw : List Byte) (size : Nat) : List LfRange :=
  let shift := decide (lfOp raw = 1)
  let src := lfWord raw 0x10
  let dst := lfWord raw 0x18
  let n := lfLen raw
  let e := lfEsize raw
  let data : List LfRange := if shift then
      [(src, if lfSend raw = 0 then 0 else n, false), (dst, if lfRecv raw = 0 then 0 else n, true),
       (lfWord raw 0x20, if lfRed raw then n else 0, false), (0, 0, false)]
    else
      [(src, lfNelem raw * e, false), (dst, size * lfCap raw * e, true), (lfWord raw 0x20, 2 * lfNelem raw, false),
       (lfWord raw 0x28, 16 * size, true)]
  data ++ [(lfStart raw, if lfThresh raw = 0 then 0 else 8, false), (lfWord raw 0x30, if lfWord raw 0x30 = 0 then 0 else 8, true)]

/-- Translate and check ranges in order: their pieces, and the first failure (R348 check 6). -/
def State.lfTranslate (s : State) (p : Nat) : List LfRange → State × List (List (Nat × Nat)) × Status
  | [] => (s, [], 0)
  | (va, n, wr) :: r =>
    if n = 0 then
      let x := s.lfTranslate p r
      (x.1, [] :: x.2.1, x.2.2)
    else
      let (s, ps, st) := s.translate .lf 3 p va n wr
      let st := if st ≠ 0 then st else s.piecesAccess .lf ps
      if st ≠ 0 then (s, [], st)
      else if s.lfOwned p ps = false then (s, [], 0x0102)
      else
        let x := s.lfTranslate p r
        (x.1, ps :: x.2.1, x.2.2)

/-- The overlaps that R350 refuses. -/
def lfOverlap (raw : List Byte) : Bool :=
  let n := lfLen raw
  let src := lfWord raw 0x10
  let dst := lfWord raw 0x18
  let acc := lfWord raw 0x20
  lfOp raw == 1 && lfRed raw &&
    ((lfSend raw != 0 && overlaps src n dst n) || (lfSend raw != 0 && overlaps src n acc n) || (acc != dst && overlaps acc n dst n))

/-! ## Data (R349 to R352, R356) -/

/-- The pieces of a range of bytes within pieces. -/
def subPieces : List (Nat × Nat) → Nat → Nat → List (Nat × Nat)
  | [], _, _ => []
  | (a, n) :: r, o, len =>
    if len = 0 then []
    else if n ≤ o then subPieces r (o - n) len
    else (a + o, min len (n - o)) :: subPieces r 0 (len - min len (n - o))

/-- One element of the adder: result pattern and the indications it raises (R350). -/
def lfAddElem (afmt a b : Nat) : Nat × Nat :=
  if afmt = 9 then
    let x := signed 32 a + signed 32 b
    let y := max (-2147483648) (min 2147483647 x)
    (wrap 32 y, if y = x then 0 else 1)
  else
    let f := if afmt = 1 then Fmt.bf16 else Fmt.fp32
    let r := (f.fp.conv .rne false (Num.add false (f.fp.decode a) (f.fp.decode b))).val
    let x := f.fp.decode r
    (r, (if x.isInf then 2 else 0) + (if x.isNan then 4 else 0))

/-- The first `n` bytes of a list, or none where one of them is poisoned. -/
def cleanTake (n : Nat) (d : List TByte) : Option (List Byte) :=
  let t := d.take n
  if t.any (fun b => b.isNone) ∨ t.length < n then none else some (clean t)

/-- The elementwise sum of received bytes and ACC: bytes, and the indications (R350). -/
def lfAdd (afmt size : Nat) : Nat → List TByte → List TByte → List TByte × Nat
  | 0, _, _ => ([], 0)
  | n + 1, x, y =>
    let r := lfAdd afmt size n (x.drop size) (y.drop size)
    match cleanTake size x, cleanTake size y with
    | some a, some b =>
      let z := lfAddElem afmt (leNat a) (leNat b)
      (carried (leBytes size z.1) ++ r.1, z.2 ||| r.2)
    | _, _ => (List.replicate size none ++ r.1, 32 ||| r.2)

/-- The converted buffer (R352), unit by unit; a unit with a poisoned byte stays poisoned. -/
def bridgeConv (f t : Fmt) (src unit : Nat) : Nat → List TByte → List TByte
  | 0, _ => []
  | n + 1, d =>
    let k := src * 8 / f.bitsOf
    let out : List TByte := match cleanTake src d with
      | some b => carried (packElems t ((List.range k).map (fun i => (convert f t .rne false (packedAt f b i)).val)))
      | none => List.replicate unit none
    out ++ bridgeConv f t src unit n (d.drop src)

/-- A buffer as an older partner takes it. -/
def bridged (c gen : Nat) (d : List TByte) : List TByte :=
  match Fmt.ofCode c with
  | none => d
  | some f =>
    let t := bridgeFmt f gen
    if t = f then d else bridgeConv f t (fmtUnit c) (t.bytes (fmtUnit c * 8 / f.bitsOf)) (d.length / fmtUnit c) d

/-- Send an engine message of a run over the half's route (R361, R362). -/
def State.lfSendMsg (s : State) (r : LfRun) (h : LfHalf) (k : LfMsgKind) : State :=
  let m : LfMsg := ⟨⟨r.group % 64, Nat.mod_lt _ (by omega)⟩, BitVec.ofNat 4 r.epoch, BitVec.ofNat 32 r.opseq, !h.next,
    BitVec.ofNat 14 (entryRank (r.entry.getD 0 0)), k⟩
  (s.setNet (s.net ++ [.engine h.chip h.route m]))

/-- The first status other than GS_0000. -/
def firstStatus (a b : Status) : Status := if a = 0 then b else a

/-- The engine reads pieces for a partition; GS_0102 where a window among them is no longer the partition's (R181). -/
def State.lfRead (s : State) (part : Nat) (ps : List (Nat × Nat)) : State × List TByte × Status :=
  if s.lfOwned part ps then s.piecesRead ps
  else (s, List.replicate (sumOf (ps.map (fun x => x.2))) none, 0x0102)

/-- The source that the grants of a channel record (R353). -/
def State.lfSource (s : State) (ch : Nat) : Source := ⟨BitVec.ofNat 14 s.chipId, ⟨ch % 800, Nat.mod_lt _ (by omega)⟩, 0⟩

/-- A write of a channel at a window offset, under its grant (R194, R197). -/
def State.lfWrite (s : State) (ch part k off tag : Nat) (gen : BitVec 4) (d : List TByte) : State × Status :=
  s.inboundWrite k ⟨s.lfSource ch, some ⟨part % 16, Nat.mod_lt _ (by omega)⟩, true, gen, BitVec.ofNat 8 tag, BitVec.ofNat 22 off,
    d, 0, none⟩

/-- Performed data of a receive half at offset `o` of it: stored, or added to ACC and stored (R349 to R351). The answer
holds the status and the indications. -/
def State.lfPerform (s : State) (r : LfRun) (ch dstOff : Nat) (w : LfWin) (d : List TByte) : State × Status × Nat :=
  let size := fmtUnit (lfAfmt r.raw)
  let red := lfOp r.raw == 1 && lfRed r.raw
  let (s, acc, st1) := if red then s.lfRead r.part (subPieces r.aux dstOff d.length) else (s, [], 0)
  let x := if red then lfAdd (lfAfmt r.raw) size (d.length / size) d acc else (d, if d.any (fun b => b.isNone) then 32 else 0)
  let ps := subPieces r.dst dstOff d.length
  let (s, st2) := match w.core, ps with
    | some k, (a, _) :: _ => s.lfWrite ch r.part k (winOff a) w.tag w.gen x.1
    | _, _ => s.piecesWrite x.1 ps
  (s, firstStatus st1 st2, x.2)

/-- Add a status and indications to a run. -/
def runNote (r : LfRun) (st : Status) (ind : Nat) : LfRun := { r with status := firstStatus r.status st, ind := r.ind ||| ind }

/-! ## Start (R345, R349, R351, R352, R356, R357, R362, R363) -/

/-- A half toward the member at a rank; `dir` names the neighbour that it is, where it is one (R361). -/
def State.newHalf (s : State) (r : LfRun) (send next : Bool) (dir : Option Bool) (rank total : Nat) : LfHalf :=
  let m := s.member r.group rank
  { send := send, next := next, rank := rank, chip := m.2, gen := 3, total := total, known := send, moved := 0, opened := 0,
    wins := [], closed := none, since := s.ns, fin := false, buf := [], route := s.routeTo r.entry dir m.2, here := false,
    data := 0 }

/-- The half that takes what is on this chip (R351, R356). -/
def State.hereHalf (s : State) (r : LfRun) (rank : Nat) (d : List TByte) : LfHalf :=
  { s.newHalf r false false none rank d.length with known := true, buf := d, here := true, route := [] }

/-- The send half of a SHIFT as it starts: toward an older partner it converts and writes at once (R352). -/
def State.startSend (s : State) (r : LfRun) : State × LfRun × List LfHalf :=
  if lfSend r.raw = 0 then (s, r, [])
  else
    let next := decide (lfSend r.raw = 1)
    let a := r.entry.getD 0 0
    let h := s.newHalf r true next (some next) (neighbour (entrySize a) (entryRank a) next) (lfLen r.raw)
    match s.lfBridge r.entry next h.chip with
    | none => (s, r, [h])
    | some (p, c, g) =>
      if c ≠ h.chip ∨ h.route ≠ [] then (s, runNote r 0x0D0B 0, [{ h with gen := g, fin := true }])
      else
        let (s, d, st) := s.lfRead r.part r.src
        let s := s.lnkSend (.olderWrite p (lfWord r.raw 0x28) (bridged (lfSfmt r.raw) g d) (g == 2))
        let s := if g = 1 then s.lnkSend (.olderFence p) else s
        (s, runNote r st 0, [{ h with gen := g }])

/-- The receive half of a SHIFT as it starts: LOCAL takes DST as it stands (R351). -/
def State.startRecv (s : State) (r : LfRun) : State × LfRun × List LfHalf :=
  match lfRecv r.raw with
  | 0 => (s, r, [])
  | 3 =>
    if lfRed r.raw then
      let (s, d, st) := s.lfRead r.part r.dst
      (s, runNote r st 0, [s.hereHalf r (entryRank (r.entry.getD 0 0)) d])
    else (s, r, [])
  | x =>
    let next := decide (x = 2)
    let a := r.entry.getD 0 0
    (s, r, [{ s.newHalf r false next (some next) (neighbour (entrySize a) (entryRank a) next) (lfLen r.raw) with known := true }])

/-- The elements of SRC for rank `d`, in rising order (R356). -/
def bucketOf (e d : Nat) : Nat → List Nat → List TByte → List (List TByte)
  | 0, _, _ => []
  | n + 1, idx, src =>
    let rest := bucketOf e d n (idx.drop 1) (src.drop e)
    if idx.headD 65536 = d then src.take e :: rest else rest

/-- The bytes that the engine fills a bucket's unused end with (R356). -/
def padBytes (r : LfRun) (n : Nat) : List TByte := List.replicate n (some (BitVec.ofNat 8 (natBits (lfWord r.raw 0) 39 32)))

/-- A PERMUTE as it starts: its buckets are gathered, and a send and a receive half stand for every other member; the own
bucket and its padding are a half of this chip (R356, R357). -/
def State.startPermute (s : State) (r : LfRun) : State × LfRun :=
  let a := r.entry.getD 0 0
  let size := entrySize a
  let own := entryRank a
  let e := lfEsize r.raw
  let cap := lfCap r.raw
  let n := lfNelem r.raw
  let (s, ib, st1) := s.lfRead r.part r.aux
  if st1 ≠ 0 then (s, runNote r st1 0)
  else
    let (s, src, st2) := s.lfRead r.part r.src
    let idx := (List.range n).map (fun i => leAt (clean ib) (2 * i) 2)
    let all := (List.range size).map (fun d => bucketOf e d n idx src)
    let bad := (idx.filter (fun i => decide (size ≤ i))).length
    let sent := all.map (fun b => (min b.length cap, b.length - cap))
    let lost := sumOf (sent.map (fun x => x.2))
    let buckets := all.map (fun b => (b.take cap).flatten)
    let r := runNote { r with sent := sent, dropped := lost + bad } st2
      ((if lost ≠ 0 then 8 else 0) + (if bad ≠ 0 then 16 else 0))
    let mine := buckets.getD own []
    let dir (d : Nat) : Option Bool :=
      if d = neighbour size own true then some true else if d = neighbour size own false then some false else none
    let others := (List.range size).filter (fun d => d ≠ own)
    let hs := others.map (fun d =>
      { s.newHalf r true false (dir d) d (buckets.getD d []).length with buf := buckets.getD d [] })
    let hr := others.map (fun d => s.newHalf r false false (dir d) d (cap * e))
    let me := s.hereHalf r own (mine ++ padBytes r (cap * e - mine.length))
    (s, { r with halves := hs ++ hr ++ [me] })

/-- A checked descriptor starts: check 7 again, OPSEQ, and its halves (R345). -/
def State.lfBegin (s : State) (ch : Nat) (r : LfRun) : State :=
  let st := s.lfGroupCheck ch r.raw
  if st ≠ 0 then s.setRun ch (some { r with started := true, status := st })
  else
    let g := r.group
    let r := { r with started := true, epoch := s.fld (R.LF_GSTAT g) 59 56, opseq := s.fld (R.LF_GSTAT g) 31 0, entry := s.entryOf g }
    let s := (s.wrapInc (R.LF_GSTAT g) 31 0).setLfState ch 1
    if lfOp r.raw = 2 then
      let x := s.startPermute r
      x.1.setRun ch (some x.2)
    else
      let (s, r, hs) := s.startSend r
      let (s, r, hr) := s.startRecv r
      s.setRun ch (some { r with halves := hs ++ hr })

/-- LF_DESCRIPTOR_START (R345, R348): the descriptor at the head of an enabled channel that is not stopped is fetched and
checked; it starts, waits for its counter, or fails. -/
def execLfDescriptorStart (ch : ChanId) (s : State) : Out :=
  .next (
    let ch := ch.val
    if s.bitOf (R.LF_CH_CFG ch) 31 = false ∨ s.lfState ch = 3 ∨ (s.lfRun ch).isSome ∨ s.lfHead ch = s.lfTail ch then s
    else
      let p := s.lfPart ch
      let idx := s.lfHead ch
      let (s, raw, st0) := s.lfFetch ch idx
      let g := lfGroup raw
      let entry := s.entryOf g
      let next := decide (lfSend raw = 1)
      let far := (s.member g (neighbour (entrySize (s.grp g 0)) (entryRank (s.grp g 0)) next)).2
      let st1 := firstStatus st0 (lfStatic raw ((s.lfBridge entry next far).map (fun x => x.2.2)))
      let size := entrySize (s.grp g 0)
      let vas := (lfRanges raw size).map (fun x => (x.1, x.2.1))
      let r : LfRun := ⟨idx, raw, p, false, g, 0, 0, entry, vas, [], [], [], [], [], 0, 0, 0, []⟩
      let fail (s : State) (st : Status) : State := (s.setRun ch (some { r with started := true, status := st })).setLfState ch 1
      if st1 ≠ 0 then fail s st1
      else
        let (s, ps, st2) := s.lfTranslate p (lfRanges raw size)
        if st2 ≠ 0 then fail s st2
        else if lfOverlap raw then fail s 0x0102
        else
          let st3 := s.lfGroupCheck ch raw
          if st3 ≠ 0 then fail s st3
          else
            let r : LfRun := { r with src := ps.getD 0 [], dst := ps.getD 1 [], aux := ps.getD 2 [], cnts := ps.getD 3 [] }
            if lfThresh raw ≠ 0 then (s.setRun ch (some r)).setLfState ch 2
            else s.lfBegin ch r)

/-- LF_START_POLL (R345, R216): the START counter of a waiting descriptor is read at its home. -/
def execLfStartPoll (ch : ChanId) (s : State) : Out :=
  .next (
    let ch := ch.val
    match s.lfRun ch with
    | none => s
    | some r =>
      if r.started then s
      else
        let (s, ps, st) := s.translate .lf 3 r.part (lfStart r.raw) 8 false
        let st := firstStatus st (s.piecesAccess .lf ps)
        let (s, d, st) := if st ≠ 0 then (s, [], st) else
          let (s, d, st2) := s.piecesRead ps
          (s, d, st2)
        if st ≠ 0 then s.setRun ch (some { r with started := true, status := st })
        else if (lfThresh r.raw : Int) ≤ signed 64 (leNat (clean d)) then s.lfBegin ch r
        else s)

/-- The engine writes bytes to pieces at once: a scratchpad piece under a grant of its own, returned after it (R194, R353);
`none` where a grant is not to be had. -/
def State.lfPut (s : State) (ch part : Nat) (d : List TByte) : List (Nat × Nat) → Option (State × Status)
  | [] => some (s, 0)
  | (a, n) :: r =>
    let here : Option (State × Status) := match s.regionOf a 1 with
      | some (.window k) =>
        let u := winOff a / 4096
        let units := (winOff a % 4096 + n + 4095) / 4096
        let (s, w) := s.makeGrant k u units (some part) (s.lfSource ch) true
        if bits w 63 48 ≠ 0 ∨ bits w 47 32 < units then none
        else
          let (s, st) := s.lfWrite ch part k (winOff a) (bits w 7 0) (BitVec.ofNat 4 (bits w 15 12)) (d.take n)
          some (s.endGrant k (bits w 7 0), st)
      | _ => some (s.memWrite a (d.take n))
    match here with
    | none => none
    | some (s, st) => (s.lfPut ch part (d.drop n) r).map (fun x => (x.1, firstStatus st x.2))

/-- LF_COMPLETE (R345, R357): every half has ended, so CNTS, the result word and the DONE count are made and HEAD
advances; it waits while CNTS has no grant. -/
def execLfComplete (ch : ChanId) (s : State) : Out :=
  .next (
    let ch := ch.val
    match s.lfRun ch with
    | none => s
    | some r =>
      if r.started = false ∨ r.halves.any (fun h => !h.fin) then s
      else
        let e := lfEsize r.raw
        let own := entryRank (r.entry.getD 0 0)
        let got (d : Nat) : Nat :=
          if d = own then (r.sent.getD d (0, 0)).1
          else match r.halves.find? (fun h => !h.send && h.rank == d) with
            | some h => h.data / e
            | none => 0
        let cnt := (List.range r.sent.length).flatMap (fun d =>
          let x := r.sent.getD d (0, 0)
          leBytes 4 x.1 ++ leBytes 4 x.2 ++ leBytes 4 (got d) ++ leBytes 4 0)
        match s.lfPut ch r.part (carried cnt) (if r.sent = [] then [] else subPieces r.cnts 0 cnt.length) with
        | none => s
        | some (s, st) =>
          let s := if r.dropped = 0 then s else s.satInc R.LF_PERM_OVF_CNT 31 0 r.dropped
          (s.setRun ch none).lfFinish ch r.idx (lfWord r.raw 0x30) (firstStatus r.status st) r.ind r.dropped)

/-! ## Windows (R353 to R355) -/

/-- Whether a receive half may open a window now (R354). -/
def State.canOpen (s : State) (h : LfHalf) : Bool :=
  !h.send && !h.fin && decide (h.wins.length < 2) && decide (h.opened < h.total) &&
    (match h.closed with | some t => decide (t + 1000 ≤ s.ns) | none => true)

/-- Offset of a half's bytes within DST. -/
def halfBase (r : LfRun) (h : LfHalf) : Nat := if lfOp r.raw = 2 then h.rank * (lfCap r.raw * lfEsize r.raw) else 0

/-- The key that the two ends of a half compare: LEN, or E and CAP (R349, R356). -/
def halfKey (r : LfRun) : Nat := if lfOp r.raw = 2 then lfEsize r.raw * 2 ^ 32 + lfCap r.raw else lfLen r.raw

/-- Bytes of the run that a list of pieces begins with: pieces of HBM, or of one core's window at rising addresses. -/
def State.runLen (s : State) : List (Nat × Nat) → Nat
  | [] => 0
  | [(_, n)] => n
  | (a, n) :: (b, m) :: r =>
    let more : Bool := match s.regionOf a 1, s.regionOf b 1 with
      | some .hbm, some .hbm => true
      | some (.window j), some (.window k) => j == k && decide (b = a + n)
      | _, _ => false
    if more then n + s.runLen ((b, m) :: r) else n

/-- Open the next window of a half: an HBM run, or the run that the inbound engine grants (R353). -/
def State.openWindow (s : State) (ch : Nat) (r : LfRun) (h : LfHalf) : State × Option LfWin :=
  let ps := subPieces r.dst (halfBase r h + h.opened) (h.total - h.opened)
  let n := s.runLen ps
  match ps with
  | [] => (s, none)
  | (a, _) :: _ =>
    match s.regionOf a 1 with
    | some (.window k) =>
      let u := winOff a / 4096
      let want := min n (s.fld R.LF_CFG 23 16 * 4096)
      let (s, w) := s.makeGrant k u ((winOff a % 4096 + want + 4095) / 4096) (some r.part) (s.lfSource ch) true
      if bits w 63 48 ≠ 0 then (s, none)
      else (s, some ⟨h.opened, min n ((u + bits w 47 32) * 4096 - winOff a), 0, some k, bits w 7 0, BitVec.ofNat 4 (bits w 15 12)⟩)
    | _ => (s, some ⟨h.opened, min n (s.fld R.LF_CFG 31 24 * 0x10000), 0, none, 0, 0⟩)

/-- Announce a window to the send half. -/
def State.announce (s : State) (r : LfRun) (h : LfHalf) (w : LfWin) : State :=
  s.lfSendMsg r h (.window w.base w.len h.total (halfKey r))

/-- The first receive half that may open a window and has one granted: its place, itself, the window, and the state with the
window open. -/
def State.nextWindow (s : State) (ch : Nat) (r : LfRun) : Option (Nat × LfHalf × LfWin × State) :=
  (List.range r.halves.length).findSome? (fun i => match r.halves[i]? with
    | some h =>
      if s.canOpen h then
        (match s.openWindow ch r h with
         | (t, some w) => some (i, h, w, t)
         | (_, none) => none)
      else none
    | none => none)

/-- A half of this chip fills a window with its bytes as soon as it is open (R351, R356). -/
def State.fillHere (s : State) (ch : Nat) (r : LfRun) (i : Nat) (h : LfHalf) (w : LfWin) : State :=
  let d := (h.buf.drop w.base).take w.len
  let (s, st, ind) := s.lfPerform r ch (halfBase r h + w.base) w d
  let h := { h with opened := w.base + w.len, wins := h.wins ++ [{ w with landed := w.len }], moved := h.moved + w.len, since := s.ns }
  s.setRun ch (some (runNote { r with halves := r.halves.set i h } st ind))

/-- LF_WINDOW_OPEN (R353, R354): a receive half opens a window and announces it; where none may, the windows that have had
no data are announced again. -/
def execLfWindowOpen (ch : ChanId) (s : State) : Out :=
  .next (
    let ch := ch.val
    match s.lfRun ch with
    | none => s
    | some r =>
      match s.nextWindow ch r with
      | some (i, h, w, s) =>
        if h.here then s.fillHere ch r i h w
        else
          (s.announce r h w).setRun ch (some { r with
            halves := r.halves.set i { h with opened := w.base + w.len, wins := h.wins ++ [w], since := s.ns } })
      | none =>
        r.halves.foldl (fun s h =>
          if h.send ∨ h.here then s else (h.wins.filter (fun w => w.landed == 0)).foldl (fun s w => s.announce r h w) s) s)

/-- The windows of a half that are full, or all of them once its last byte has landed. -/
def fullWins (h : LfHalf) : List LfWin :=
  if h.send then [] else if h.known ∧ h.moved = h.total then h.wins else h.wins.filter (fun w => decide (w.landed = w.len))

/-- Bytes that a receive half of a PERMUTE is to have in the end: the whole bucket (R356). -/
def bucketLen (r : LfRun) (h : LfHalf) : Nat := if lfOp r.raw = 2 then lfCap r.raw * lfEsize r.raw else h.total

/-- The unused end of a bucket that has landed is filled as far as its open windows reach (R356, R194); what is left is for
windows of a half of this chip. -/
def State.padHalf (s : State) (ch : Nat) (r : LfRun) (h : LfHalf) : State × LfHalf :=
  let len := bucketLen r h
  if h.send ∨ h.here ∨ h.fin ∨ h.known = false ∨ h.moved ≠ h.total ∨ h.total = len then (s, h)
  else
    let s := h.wins.foldl (fun s w =>
      let lo := max w.base h.total
      if w.base + w.len ≤ lo then s else (s.lfPerform r ch (halfBase r h + lo) w (padBytes r (w.base + w.len - lo))).1) s
    let at_ := max h.total (min len h.opened)
    (s, { h with total := len, moved := at_, opened := at_, here := true, buf := padBytes r len,
                 wins := h.wins.map (fun w => { w with landed := w.len }) })

/-- LF_WINDOW_CLOSE (R353, R356): full windows close and their grants are returned; a half with nothing left to come ends,
after its bucket's padding. -/
def execLfWindowClose (ch : ChanId) (s : State) : Out :=
  .next (
    let ch := ch.val
    match s.lfRun ch with
    | none => s
    | some r =>
      let (s, hs) := r.halves.foldl (fun (x : State × List LfHalf) h =>
        let y := x.1.padHalf ch r h
        (y.1, x.2 ++ [y.2])) (s, [])
      let s := hs.foldl (fun s h => (fullWins h).foldl (fun s w => s.returnGrant w) s) s
      let done (h : LfHalf) : Bool := !h.send && h.known && decide (h.moved = h.total)
      let upd (h : LfHalf) : LfHalf :=
        if fullWins h = [] then (if done h then { h with fin := true } else h)
        else { h with wins := h.wins.filter (fun w => !(fullWins h).contains w), closed := some s.ns, fin := h.fin || done h }
      s.setRun ch (some { r with halves := hs.map upd }))

/-- LF_WINDOW_TIMEOUT (R355): halves that have waited WTMO for a window or for data complete with GS_0D08. -/
def execLfWindowTimeout (ch : ChanId) (s : State) : Out :=
  .next (
    let ch := ch.val
    match s.lfRun ch with
    | none => s
    | some r =>
      let late (h : LfHalf) : Bool := !h.fin && h.gen == 3 &&
        decide (h.since + max 1 (s.fld R.LF_CFG 55 40) * 1000000 ≤ s.ns)
      if r.halves.any late = false then s
      else
        let s := (r.halves.filter late).foldl (fun s h => s.closeWins h) s
        let hs := r.halves.map (fun h => if late h then { h with fin := true, wins := [] } else h)
        s.setRun ch (some (runNote { r with halves := hs } 0x0D08 0)))

/-! ## Messages (R349, R362) -/

/-- Whether a half is the one that a message of a kind is for (R349, R356). -/
def forHalf (r : LfRun) (m : LfMsg) (h : LfHalf) : Bool :=
  let kind := match m.kind with
    | .window _ _ _ _ | .ack _ => h.send
    | .data _ _ _ _ => !h.send && !h.here
    | .fail t _ => h.send == t
    | .beat => false
  kind && !h.fin && (if lfOp r.raw = 2 then h.rank == m.rank.toNat else h.next == m.fromNext)

/-- The active half that a message names: channel and index. -/
def State.activeHalf (s : State) (m : LfMsg) : Option (Nat × Nat) :=
  (List.range 16).findSome? (fun ch => match s.lfRun ch with
    | some r =>
      if r.started ∧ r.group = m.group.val ∧ r.epoch = m.epoch.toNat ∧ r.opseq = m.opseq.toNat then
        (r.halves.findIdx? (forHalf r m)).map (fun i => (ch, i))
      else none
    | none => none)

/-- A half ends with a status. -/
def endHalf (r : LfRun) (i : Nat) (h : LfHalf) (st : Status) : LfRun :=
  runNote { r with halves := r.halves.set i { h with fin := true, wins := [] } } st 0

/-- A window reaches a send half: lengths that differ end both halves; else its data go. -/
def State.lfWindow (s : State) (ch i : Nat) (r : LfRun) (h : LfHalf) (base len key : Nat) : State :=
  if key ≠ halfKey r then (s.lfSendMsg r h (.fail false 0x0D05)).setRun ch (some (endHalf r i h 0x0D05))
  else if base ≠ h.opened ∨ h.gen ≠ 3 then s
  else
    let (s, d, st) := if lfOp r.raw = 2 then (s, (h.buf.drop base).take len, 0)
      else s.lfRead r.part (subPieces r.src base (min len (h.total - base)))
    let s := s.lfSendMsg r h (.data base h.total d st)
    let r := runNote { r with halves := r.halves.set i { h with opened := base + len, since := s.ns } } st
      (if d.any (fun b => b.isNone) then 32 else 0)
    s.setRun ch (some r)

/-- Data reach a receive half: within an open window they are performed and acknowledged. -/
def State.lfData (s : State) (ch i : Nat) (r : LfRun) (h : LfHalf) (off total : Nat) (d : List TByte) (st : Status) : State :=
  let size := if lfOp r.raw = 1 ∧ lfRed r.raw then fmtUnit (lfAfmt r.raw) else 1
  let inWin (w : LfWin) : Bool := decide (w.base ≤ off) && decide (off + d.length ≤ w.base + w.len)
  match h.wins.find? inWin with
  | none => s
  | some w =>
    if off % size ≠ 0 ∨ d.length % size ≠ 0 ∨ h.total < total then s
    else
      let (s, st2, ind) := s.lfPerform r ch (halfBase r h + off) w d
      let s := s.lfSendMsg r h (.ack d.length)
      let wins := modifyFirst inWin (fun w => { w with landed := w.landed + d.length }) h.wins
      let h := { h with wins := wins, moved := h.moved + d.length, data := h.data + d.length, total := total, known := true, since := s.ns }
      s.setRun ch (some (runNote { r with halves := r.halves.set i h } (firstStatus st st2) ind))

/-- LF_MESSAGE (R349, R362, R364): an engine message is applied, or dropped, counted and logged. -/
def execLfMessage (m : LfMsg) (s : State) : Out :=
  .next (
    let s := s.taken (.engine s.chipId [] m)
    let g := m.group.val
    let drop (s : State) : State := (s.satInc R.LF_DROP_CNT 31 0).logEvent schedProc 0x0104 1 [m.rank.toNat, m.epoch.toNat, m.opseq.toNat]
    match m.kind with
    | .beat =>
      if s.ringMode g ∧ s.fld (R.LF_GSTAT g) 59 56 = m.epoch.toNat then
        let b := Sparse.set (fun _ => 0) s.sys.lf.beats (2 * g + m.fromNext.toNat) s.ns
        (s.setSys { s.sys with lf := { s.sys.lf with beats := b } })
      else drop s
    | k =>
      match s.activeHalf m with
      | none => drop s
      | some (ch, i) =>
        match s.lfRun ch with
        | none => s
        | some r => match r.halves[i]? with
          | none => s
          | some h => match k with
            | .window base len _ key => s.lfWindow ch i r h base len key
            | .data off total d st => s.lfData ch i r h off total d st
            | .ack n =>
              let h := { h with moved := h.moved + n, since := s.ns }
              let h := if h.total ≤ h.moved ∨ h.gen ≠ 3 then { h with fin := true } else h
              s.setRun ch (some { r with halves := r.halves.set i h })
            | .fail _ st => (s.closeWins h).setRun ch (some (endHalf r i h (if h.gen = 3 then st else 0x0C05)))
            | .beat => s)

end Sys2Proof.Machine
end

