-- ==== Sys2Proof/Machine/Power.lean ====
section
/-!
DEFINITION. Power domains, sleep requests and wake (R455 to R464, R476), and the governor (R465 to R472, R512, R513).
-/

namespace Sys2Proof.Machine

/-! ## Domains (R455, R456) -/

/-- Kinds of domain: 0 position, 1 stack, 2 Leapfrog engine, 3 a link or a reserved id. -/
def domKind (d : Nat) : Nat := if d < 0x340 then 0 else if d < 0x348 then 1 else if d = 0x348 then 2 else 3

/-- Whether a domain is ABSENT (R455). -/
def State.domAbsent (s : State) (d : Nat) : Bool :=
  match domKind d with
  | 0 => s.posState d == 0 || s.posState d == 5
  | 1 => s.stackCap (d - 0x340) == 0
  | 2 => !s.variant.lf
  | _ => false

/-- Whether TARGET is listed for a kind: 0 ACTIVE, 1 RETAIN, 2 OFF, 3 SELF_REFRESH (R456, R460). -/
def targetOk (kind target : Nat) : Bool :=
  target == 0 || (kind == 0 && (target == 1 || target == 2)) || (kind == 1 && target == 3) || (kind == 2 && target == 2)

/-- The state that a TARGET names, as PWR_DSTATE_d.STATE has it. -/
def targetState (target : Nat) : Nat := if target = 0 then 0 else target + 2

/-- Entry time in ns (R456). -/
def entryNs (kind st : Nat) : Nat := if kind = 1 then 1000 else if kind = 2 then 10000 else if st = 3 then 2000 else 5000

/-- Exit time in ns (R456). -/
def exitNs (kind st : Nat) : Nat := if kind = 1 then 2000 else if kind = 2 then 20000 else if st = 3 then 3000 else 20000

/-- A domain beside its register. -/
def State.dom (s : State) (d : Nat) : DomRec := Sparse.get (fun _ => DomRec.reset) s.sys.pwr.doms d

/-- Change the power controller's state. -/
def State.modPwr (s : State) (f : PwrState → PwrState) : State := (s.setSys { s.sys with pwr := f s.sys.pwr })

/-- Change a domain's record. -/
def State.modDom (s : State) (d : Nat) (f : DomRec → DomRec) : State :=
  s.modPwr (fun p => { p with doms := Sparse.set (fun _ => DomRec.reset) p.doms d (f (Sparse.get (fun _ => DomRec.reset) p.doms d)) })

/-- Set PWR_DSTATE_d.STATE. -/
def State.setDstate (s : State) (d x : Nat) : State := s.setFld (R.PWR_DSTATE d) 31 28 x

/-- Whether a domain lies in a low state that it must exit. -/
def State.asleep (s : State) (d : Nat) : Bool := decide (3 ≤ s.dstate d) && decide (s.dstate d ≤ 5)

/-- A domain starts its exit. -/
def State.beginExit (s : State) (d : Nat) : State :=
  let st := s.dstate d
  (s.modDom d (fun r => { r with since := s.ns, target := st, wake := false })).setDstate d 6

/-- A domain starts its entry into a state. -/
def State.beginEntry (s : State) (d st wakeen : Nat) : State :=
  ((s.modDom d (fun _ => ⟨s.ns, st, false⟩)).setDstate d 2).setFld (R.PWR_DSTATE d) 27 24 wakeen

/-- A wake event that the domain serves: exit starts, or follows at the end of entry (R461). -/
def State.wakeDom (s : State) (d : Nat) : State :=
  if s.asleep d then s.beginExit d
  else if s.dstate d = 2 then s.modDom d (fun r => { r with wake := true })
  else s

/-- GATED_ENTRY (R457): nothing runs at the position. -/
def execGatedEntry (p : PhysId) (s : State) : Out :=
  .next (
    let busy : Bool := match s.slotOf p.val with
      | some k =>
        let x := s.core k
        !x.mq.isEmpty || !x.vq.isEmpty || !x.dq.isEmpty ||
          (List.range 4).any (fun c => let st := s.seqState k c; st == 1 || st == 2 || st == 5)
      | none => false
    if s.dstate p.val = 0 ∧ busy = false then s.setDstate p.val 1 else s)

/-- GATED_EXIT (R457). -/
def execGatedExit (p : PhysId) (s : State) : Out := .next (if s.dstate p.val = 1 then s.setDstate p.val 0 else s)

/-! ## Wake on access (R458, R459, R463) -/

/-- Whether a wake source of a position is armed: 0 ACCESS, 1 FLAG, 2 CHORUS, 3 DISPATCH. -/
def State.armed (s : State) (d src : Nat) : Bool := (s.fld (R.PWR_DSTATE d) 27 24).testBit src

/-- The low state a domain is in or enters. -/
def State.lowState (s : State) (d : Nat) : Nat := if s.dstate d = 2 then (s.dom d).target else if s.asleep d then s.dstate d else 0

/-- RETAIN_ACCESS_WAKE (R458): the access is held, and exit starts now or at the end of entry. -/
def execRetainAccessWake (d : Domain) (s : State) : Out :=
  .next (
    let d := d.val
    let st := s.lowState d
    if domKind d = 0 ∧ st = 3 ∧ s.armed d 0 then (s.modPos d (fun x => { x with heldAcc := x.heldAcc + 1 })).wakeDom d
    else if domKind d = 1 ∧ st = 5 ∧ s.tripped = false then s.wakeDom d
    else s)

/-- The refusal of a packet at its inbound engine, as a failure of R38 check 1 is delivered (R459). -/
def State.refusePkt (s : State) (k : Nat) (m : Packet) (st : Status) : State :=
  let s := s.taken m
  match m with
  | .put x _ =>
    let s := match s.putCtx k x.off.toNat with
      | some c => s.failMember k c x.ctl
      | none => s
    s.dropPut k x st
  | .credit x _ _ => s.creditAnswer x (BitVec.ofNat 64 (st.toNat * 2 ^ 48))
  | .write x _ => if x.lf then s else s.respond x.src x.xfer st []
  | .read x _ => (match x.op with
    | .bytes _ => s.respond x.src x.xfer st []
    | _ => s.countResult x 0 st)
  | _ => s

/-- The core a packet is for. -/
def State.pktCore (s : State) (m : Packet) : Option Nat :=
  match m with
  | .put x _ => (match s.target x.job x.core.toNat with | .ok (_, k) => some k | .error _ => none)
  | .credit x _ _ => (match s.target x.job x.core.toNat with | .ok (_, k) => some k | .error _ => none)
  | .write _ k => some k
  | .read _ k => some k
  | _ => none

/-- PWR_ASLEEP_REFUSAL (R459): an access to a position that is OFF, or in RETAIN without ACCESS armed, wakes nothing and is
refused with GS_1105. -/
def execPwrAsleepRefusal (d : Domain) (m : Packet) (s : State) : Out :=
  .next (match s.pktCore m with
    | none => s
    | some k =>
      let st := s.lowState d.val
      if s.phys k = some d.val ∧ domKind d.val = 0 ∧ (st = 4 ∨ (st = 3 ∧ s.armed d.val 0 = false)) then s.refusePkt k m 0x1105 else s)

/-- DOMAIN_WAKE (R463): an armed source fires. A position's sources are those of its WAKEEN, and an OFF position has none;
a stack's and the Leapfrog engine's are always armed. -/
def execDomainWake (d : Domain) (src : Fin 4) (s : State) : Out :=
  .next (
    let d := d.val
    let st := s.lowState d
    let ok := match domKind d with
      | 0 => st == 3 && s.armed d src.val
      | 1 => st == 5 && !s.tripped
      | 2 => st == 4
      | _ => false
    if ok then s.wakeDom d else s)

/-! ## Sleep requests (R460 to R464) -/

/-- Set the request in progress and BUSY. -/
def State.setSleep (s : State) (r : Option SleepReq) : State :=
  (s.modPwr (fun p => { p with req := r })).setFld R.PWR_SLEEP_STAT 47 47 (if r.isSome then 1 else 0)

/-- The result of a completed request (R464, R474). -/
def State.sleepResult (s : State) (st : Status) (reason refuser back entered : Nat) : State :=
  (s.setReg R.PWR_SLEEP_STAT (BitVec.ofNat 64 (st.toNat * 2 ^ 48 + reason * 2 ^ 40 + refuser * 2 ^ 30 + back * 2 ^ 20 +
    entered * 2 ^ 10))).setSleep none

/-- The domains a request names. -/
def reqDoms (r : SleepReq) : List Nat := (List.range (r.count + 1)).map (· + r.first)

/-- Complete the request in progress once nothing of it is left to end (R460, R464). -/
def State.settleReq (s : State) : State :=
  match s.sys.pwr.req with
  | none => s
  | some r =>
    match r.refused with
    | some (reason, who) =>
      if r.started.all (fun d => decide (s.dstate d < 2)) then s.sleepResult 0x1101 reason who r.started.length 0 else s
    | none =>
      let t := targetState r.target
      let ended := if r.target = 0 then (reqDoms r).all (fun d => decide (s.dstate d < 2))
        else decide (r.count < r.next) && r.started.all (fun d => decide (s.dstate d ≠ 2))
      let n := ((reqDoms r).filter (fun d => s.dstate d == t || (t == 0 && s.dstate d == 1))).length
      if ended then s.sleepResult 0 0 0 0 n else s

/-- Write PWR_SLEEP_REQ (R460, R472). -/
def State.wrSleepReq (s : State) (v : Word64) : State :=
  let a := R.PWR_SLEEP_REQ
  let target := bits v 63 60
  let wakeen := bits v 59 56
  let count := bits v 41 32
  let first := bits v 9 0
  let kind := domKind first
  let last := first + count
  let same := if kind = 0 then decide (last < 0x340) else if kind = 1 then decide (last < 0x348) else kind == 2 && count == 0
  if bits v 55 42 ≠ 0 ∨ bits v 31 10 ≠ 0 then s.regErr a 0x0012
  else if s.sys.pwr.fixed then s.takeFree.regErr a (Config.argStatus s.free)
  else if s.sys.pwr.req.isSome then s.regErr a 0x1104
  else if 3 < target then s.regErr a 0x1102
  else if same = false ∨ targetOk kind target = false ∨ (wakeen ≠ 0 ∧ kind ≠ 0) then s.regErr a 0x1103
  else
    let r : SleepReq := ⟨target, wakeen, first, count, 0, s.ns, [], none⟩
    if (reqDoms r).any s.domAbsent then s.sleepResult 0x0011 0 0 0 0
    else if target = 0 then
      let s := (reqDoms r).foldl (fun s d => s.wakeDom d) s
      (s.setSleep (some { r with next := count + 1 })).settleReq
    else s.setSleep (some r)

/-- Whether a position may be put to sleep without a wake source that one of its contexts needs (R463). -/
def State.noWake (s : State) (k wakeen : Nat) : Bool :=
  let flag := wakeen.testBit 1
  let chorus := wakeen.testBit 2
  let disp := wakeen.testBit 3
  (List.range 4).any (fun c =>
    let t := s.ctx k c
    let waits := match t.wait with
      | some w => w.result.isNone && (!flag || (w.deadline.isSome && !chorus))
      | none => false
    let basks := match t.bask with
      | some w => w.result.isNone && (!disp || (w.deadline.isSome && !chorus))
      | none => false
    let timed := (t.launch.isSome || t.timed.isSome) && !chorus
    let idle := s.seqState k c == 0 && t.timed.isNone && (s.partOf k c).isSome && !disp
    waits || basks || timed || idle)

/-- A wake event from a source that the request arms comes in the tick of a member's check (R461). -/
def State.wakesNow (s : State) (d : Nat) (r : SleepReq) : Bool :=
  s.pending.any (fun c => match c with
    | .domainWake x src => x.val == d && (domKind d ≠ 0 || r.wakeen.testBit src.val)
    | .retainAccessWake x => x.val == d && (domKind d ≠ 0 || r.wakeen.testBit 0)
    | _ => false)

/-- Whether a position is in the copy step of a regeneration (R462, R499): it retires, or its spare takes over. -/
def State.copying (s : State) (p : Nat) : Bool :=
  s.sys.retire.any (fun e => e.begun && (e.pos == p || s.fld (R.TOP_CLUSTER (p / 26)) 20 16 == p % 26))

/-- The first reason that refuses a member, 0 for none (R462). -/
def State.refusal (s : State) (d : Nat) (r : SleepReq) (inp : SleepInputs) : Nat :=
  let slot := if domKind d = 0 then s.slotOf d else none
  let busy : Bool := match domKind d with
    | 0 => inp.busy || (match slot with
      | some k =>
        let x := s.core k
        !x.mq.isEmpty || !x.vq.isEmpty || !x.dq.isEmpty || !x.bank.pend.isEmpty ||
          (List.range 4).any (fun c => let st := s.seqState k c; st == 1 || st == 2 || st == 5)
      | none => false)
    | 1 => inp.busy || !s.hbm.runs.isEmpty || s.hbm.queue.any (fun x => x.1 / 64 == d - 0x340 && decide (s.ns < x.2))
    | _ => inp.busy || (List.range 16).any (fun c => s.lfState c != 0)
  let group : Bool := domKind d == 2 && (List.range 64).any (fun g =>
    (s.ringMode g && s.grpState g == 1) || s.grpState g == 3)
  let nowake : Bool := match slot with
    | some k => s.noWake k r.wakeen
    | none => false
  (firstOf [
    (domKind d == 0 && (inp.regen || s.copying d), 5),
    (domKind d == 0 && r.target == 2 && slot.isSome, 4),
    (busy, 1), (group, 7), (nowake, 3), (inp.wake || s.wakesNow d r || s.dstate d == 6, 2)]).getD 0

/-- SLEEP_MEMBER_CHECK (R461, R462, R464): the next member starts its entry, passes with no action, or is refused, which
ends the request and sends the members that had started back. -/
def execSleepMemberCheck (inp : SleepInputs) (s : State) : Out :=
  .next (match s.sys.pwr.req with
    | none => s
    | some r =>
      if r.refused.isSome ∨ r.target = 0 ∨ r.count < r.next ∨ s.ns < r.since + 10 * r.next then s
      else
        let d := r.first + r.next
        let t := targetState r.target
        if s.dstate d = t then (s.setSleep (some { r with next := r.next + 1 })).settleReq
        else
          let why := s.refusal d r inp
          if why ≠ 0 then
            let s := (s.satInc (R.PWR_RCNT d) 15 0).setFld (R.PWR_RCNT d) 31 28 why
            let s := r.started.foldl (fun s x => if s.asleep x then s.beginExit x else s) s
            (s.setSleep (some { r with refused := some (why, d) })).settleReq
          else (s.beginEntry d t r.wakeen).setSleep (some { r with next := r.next + 1, started := r.started ++ [d] }))

/-- Whether the request in progress sends a domain back. -/
def State.sentBack (s : State) (d : Nat) : Bool :=
  match s.sys.pwr.req with
  | some r => r.refused.isSome && r.started.contains d
  | none => false

/-- SLEEP_ENTRY_END (R456, R461, R464). -/
def execSleepEntryEnd (d : Domain) (s : State) : Out :=
  .next (
    let d := d.val
    let r := s.dom d
    if s.dstate d ≠ 2 ∨ s.ns < r.since + entryNs (domKind d) r.target then s
    else
      let s1 := s.setDstate d r.target
      (if r.wake ∨ s.sentBack d then s1.beginExit d else s1).settleReq)

/-- SLEEP_EXIT_END (R456, R458): held accesses are presented; nothing outlives OFF. -/
def execSleepExitEnd (d : Domain) (s : State) : Out :=
  .next (
    let d := d.val
    let r := s.dom d
    if s.dstate d ≠ 6 ∨ s.ns < r.since + exitNs (domKind d) r.target then s
    else
      let s1 := ((s.setDstate d 0).setFld (R.PWR_DSTATE d) 27 24 0).satInc (R.PWR_DSTATE d) 15 0
      let s2 := if domKind d = 0 then
          let s2 := s1.modPos d (fun x => { x with heldAcc := 0 })
          if r.target = 4 then
            s2.modPos d (fun x => { x with tlb := [], pad := { x.pad with
              bytes := [], written := [], poison := [], errs := [], wb := [], fixed := [] } })
          else s2
        else s1
      s2.settleReq)

/-! ## Clock rates (R465, R467, R512, R513) -/

/-- Change what the power core keeps of a die. -/
def State.modDie (s : State) (d : Nat) (f : DieRec → DieRec) : State :=
  s.modPwr (fun p => { p with dies := Sparse.set (fun _ => DieRec.reset) p.dies d (f (Sparse.get (fun _ => DieRec.reset) p.dies d)) })

/-- The slots of a compute die. -/
def State.dieSlots (s : State) (d : Nat) : List Nat := (List.range (16 * s.variant.slots)).map (· + 16 * s.variant.slots * d)

/-- Set LMAX of every slot of a die. -/
def State.setLmaxes (s : State) (d : Nat) (f : Nat → Nat) : State :=
  (s.dieSlots d).foldl (fun s k =>
    s.wrMaRise k (setBits (s.reg (R.MA_RISE_CTL k)) 12 8 (f (s.lmax k)))) s

/-- CCLK of a die in MHz. -/
def State.mhz (s : State) (d : Nat) : Nat := s.fld (R.PWR_CCLK d) 31 16

/-- Rail setpoint of a die in mV. -/
def State.mv (s : State) (d : Nat) : Nat := s.fld (R.PWR_CCLK d) 15 0

/-- RISE_W and RAMP_W of a die at its rate and setpoint (R467), with I(f) against the setpoint at 1.6 GHz. -/
def State.rampW (s : State) (d : Nat) : Nat :=
  let n := 16 * s.variant.slots
  let f := s.mhz d
  let num := n * Config.iarr.toNat * f * f * s.mv d
  let den := 1600 * Config.railMv d 1600 * 256 * s.fld (R.PWR_RAIL d) 31 16 * 1000
  if den = 0 then 255 else min 255 ((num + den - 1) / den)

/-- Program the ramps of every slot of a die (R467). -/
def State.programRamp (s : State) (d : Nat) : State :=
  let w := s.rampW d
  let hold := min 255 ((s.mhz d + 15) / 16)
  (s.dieSlots d).foldl (fun s k =>
    let s := s.wrMaBallast k (BitVec.ofNat 64 (2 ^ 31 + hold * 2 ^ 16 + w))
    s.wrMaRise k (setBits (s.reg (R.MA_RISE_CTL k)) 7 0 w)) s

/-- Whether a change of a die's CCLK may begin (R465, R512). -/
def State.canChange (s : State) (d mhz : Nat) : Bool :=
  let r := s.die d
  decide (r.phase = 0) && (match r.changed with | some t => decide (t + 100000 ≤ s.ns) | none => true) &&
    !(decide (r.avs = 4) && decide (s.mhz d < mhz))

/-- A change of a die's CCLK begins (R465 step 1): a rising rate raises the setpoint, and the rail has up to 50 µs to come
within 5 mV of it; LMAX is to return to `lmax` of what it was. The time that the rail takes is free (log entry 99). -/
def State.beginChange (s : State) (d mhz : Nat) (lmax : Nat → Nat) : State :=
  let former := (s.dieSlots d).map (fun k => lmax (s.lmax k))
  let set (s : State) (ph due : Nat) : State :=
    s.modDie d (fun r => { r with changed := some s.ns, relock := some mhz, lmax := former, avs := 0, phase := ph, due := due })
  if s.mhz d < mhz then
    ((set s 1 (s.ns + min 50000 (Config.railSettleNs s.free))).takeFree).setFld (R.PWR_CCLK d) 15 0 (Config.railMv d mhz)
  else set s 2 s.ns

/-- One interval of an LMAX step in ns: `w` × 16 CCLK, 1 µs at least (R465). -/
def State.lmaxNs (s : State) (d w : Nat) : Nat := max 1000 (w * 16 * 1000 / max 1 (s.mhz d))

/-- The least time between two lowerings of LMAX in ns (R465 step 2). -/
def State.lowerNs (s : State) (d : Nat) : Nat :=
  match s.dieSlots d with
  | k :: _ => s.lmaxNs d (s.fld (R.MA_BALLAST_CTL k) 7 0)
  | [] => 1000

/-- The least time between two raisings of LMAX within a change in ns (R465 step 4). -/
def State.raiseNs (s : State) (d : Nat) : Nat :=
  match s.dieSlots d with
  | k :: _ => s.lmaxNs d (s.fld (R.MA_RISE_CTL k) 7 0)
  | [] => 1000

/-- The fraction of its full core time that a die has, as partitions on it see it (R470, R424). -/
def State.dieNotice (s : State) (d : Nat) : State :=
  let ps := s.partsLive.filter (fun p => (s.partClusters p).any (fun c => c / 16 == d))
  let l := match s.dieSlots d with | k :: _ => s.lmax k | [] => 16
  s.qosFall 0 ps (s.mhz d * l) (1600 * 16)

/-- LMAX of every slot of a die one step nearer the value that a change returns it to (R465 step 4). -/
def State.raiseLmax (s : State) (d : Nat) : State :=
  ((s.dieSlots d).zip (s.die d).lmax).foldl (fun s x =>
    s.wrMaRise x.1 (setBits (s.reg (R.MA_RISE_CTL x.1)) 12 8 (min x.2 (s.lmax x.1 + 1)))) s

/-- What a change of a die's CCLK does as time passes (R465): the wait for the rail ends; LMAX falls by 1 per interval, and
at 0 the PLL begins to relock; after the relock LMAX rises by 1 per interval to what it was. A step that is due is taken at
once, so LMAX stays 0 for no more than 6 µs beside a relock of 5 µs. -/
def State.rampDie (s : State) (d : Nat) : State :=
  let r := s.die d
  if s.tripped ∨ s.ns < r.due then s
  else match r.phase with
    | 1 => s.modDie d (fun r => { r with phase := 2, due := s.ns })
    | 2 =>
      let s := s.setLmaxes d (fun l => l - 1)
      if (s.dieSlots d).all (fun k => s.lmax k == 0) then s.modDie d (fun r => { r with phase := 3, due := s.ns })
      else s.modDie d (fun r => { r with due := s.ns + s.lowerNs d })
    | 4 =>
      let s := s.raiseLmax d
      if ((s.dieSlots d).zip r.lmax).all (fun x => s.lmax x.1 == x.2) then
        (s.modDie d (fun r => { r with phase := 0, relock := none, lmax := [] })).dieNotice d
      else s.modDie d (fun r => { r with due := s.ns + s.raiseNs d })
    | _ => s

/-- A nanosecond passes while no command waits (R253, R465): TCLK has its edges, and the changes of CCLK under way go on. -/
def State.tick (s : State) : State := (s.tclk.rampDie 0).rampDie 1

/-- CCLK rates: 800 MHz + 50 MHz × k, k = 0 to 16 (R465). -/
def rateOk (mhz : Nat) : Bool := decide (800 ≤ mhz) && decide (mhz ≤ 1600) && decide (mhz % 50 = 0)

/-- CCLK_CHANGE (R465): the power core changes a die's rate; the change ends with CCLK_RELOCK_COMPLETE. -/
def execCclkChange (d : DieId) (mhz : BitVec 16) (s : State) : Out :=
  .next (
    if rateOk mhz.toNat = false ∨ s.canChange d.val mhz.toNat = false ∨ s.sys.pwr.fixed ∨ s.tripped ∨
        (s.die d.val).railOut.isSome ∨ s.procState 1 ≠ 2 then s
    else s.beginChange d.val mhz.toNat (fun l => l))

/-- CCLK_RELOCK_COMPLETE (R35, R465 steps 3 to 5): after 5 µs the rate changes, the ramps are recomputed, and LMAX begins to
return. A release that fell in the relock is late (R256). -/
def execCclkRelockComplete (d : DieId) (s : State) : Out :=
  .next (
    let d := d.val
    let r := s.die d
    match r.relock with
    | some mhz =>
      if r.phase ≠ 3 ∨ s.ns < r.due + 5000 then s
      else
        let falls := decide (mhz < s.mhz d)
        let s := s.setFld (R.PWR_CCLK d) 31 16 mhz
        let s := if falls then s.setFld (R.PWR_CCLK d) 15 0 (Config.railMv d mhz) else s
        let s := if s.sys.pwr.fixed then s else s.programRamp d
        let s := (s.dieSlots d).foldl (fun s k => (List.range 4).foldl (fun s c => s.modCtx k c (fun t => t.missed s.chorus)) s) s
        s.modDie d (fun r => { r with phase := 4, due := s.ns })
    | none => s)

/-! ## The governor (R466, R468 to R470) -/

/-- Whether the loops run on a die: the power core is in RUN, its limits are not fixed (R472), the chip has not tripped,
and no change or rail fault is under way on the die. -/
def State.governs (s : State) : Bool := s.procState 1 == 2 && !s.sys.pwr.fixed && !s.tripped

/-- The loop that last lowered a setting. -/
def State.limiter (s : State) (x : Nat) : State := s.setFld R.PWR_STAT 31 24 x

/-- The ceiling of LMAX on a die (R468). -/
def State.ceiling (s : State) (d : Nat) : Nat := if (s.die d).hot then 8 else 16

/-- A change of a die's CCLK is under way (R465). -/
def State.changing (s : State) (d : Nat) : Bool := decide ((s.die d).phase ≠ 0)

/-- CURRENT_LOOP (R468). -/
def execCurrentLoop (d : DieId) (amps : BitVec 16) (s : State) : Out :=
  .next (
    let d := d.val
    let icc := s.fld (R.PWR_RAIL d) 47 32
    let a := amps.toNat
    if s.governs = false ∨ s.changing d ∨ (s.die d).railOut.isSome then s.modDie d (fun r => { r with amps := a })
    else
      let s := s.modDie d (fun r => { r with amps := a })
      let r := s.die d
      if icc < a then
        let due : Bool := match r.stepped with | some t => decide (t + s.lowerNs d ≤ s.ns) | none => true
        let s := (s.modDie d (fun r => { r with low := none })).limiter (3 + d)
        if due then ((s.setLmaxes d (fun l => max 1 (l - 1))).modDie d (fun r => { r with stepped := some s.ns })).dieNotice d else s
      else if 10 * a ≤ 9 * icc then
        match r.low with
        | none => s.modDie d (fun r => { r with low := some s.ns })
        | some t =>
          let due : Bool := match r.stepped with | some u => decide (u + 10000 ≤ s.ns) | none => true
          if t + 100000 ≤ s.ns ∧ due then
            ((s.setLmaxes d (fun l => max l (min (s.ceiling d) (l + 1)))).modDie d (fun r => { r with stepped := some s.ns })).dieNotice d
          else s
      else s.modDie d (fun r => { r with low := none }))

/-- e^(−1/(10·tau)) times 2^100, by its series. -/
def expSeries (tau : Nat) : Nat → Nat → Int → Int → Int
  | 0, _, _, acc => acc
  | n + 1, k, term, acc =>
    let t := -term / ((10 * tau * (k + 1) : Nat) : Int)
    expSeries tau n (k + 1) t (acc + t)

/-- Whether `num / den` watts lie above P_th (R469). -/
def State.abovePth (s : State) (num den : Nat) : Bool :=
  let one : Int := 2 ^ 100
  let tau := max 1 (s.fld R.PWR_PLANT 15 8)
  let rth := s.fld R.PWR_PLANT 31 16
  let e := expSeries tau 20 0 one one
  let tgt : Int := s.fld R.PWR_THERM 31 24
  let tin : Int := s.fld R.PWR_STAT 39 32
  let tj : Int := s.fld R.PWR_STAT 47 40
  decide ((den : Int) * 10000 * ((tgt - tin) * one - (tj - tin) * e) < (num * rth : Nat) * (one - e))

/-- Whether package power lies above P_eff; `num / den` watts. -/
def State.abovePeff (s : State) (num den : Nat) : Bool := decide (s.fld R.PWR_LIMIT 31 16 * den < num) || s.abovePth num den

/-- A step of a die's CCLK under a loop. -/
def State.stepRate (s : State) (d : Nat) (up : Bool) : State :=
  let f := s.mhz d
  let g := if up then f + 50 else f - 50
  if rateOk g = false ∨ s.canChange d g = false ∨ (s.die d).railOut.isSome then s else s.beginChange d g (fun l => l)

/-- TEMPERATURE_LOOP (R468): `tj` is the hottest sensor of the die and its base die. -/
def execTemperatureLoop (d : DieId) (tj : BitVec 8) (s : State) : Out :=
  .next (
    let d := d.val
    let t := tj.toNat
    let s := s.modDie d (fun r => { r with tj := t })
    let s := s.setFld R.PWR_STAT 47 40 (max (s.die 0).tj (s.die 1).tj)
    let tgt := s.fld R.PWR_THERM 31 24
    if s.governs = false then s
    else
      let s := if t ≤ tgt then s.modDie d (fun r => { r with hot := false }) else s
      if s.fld R.PWR_THERM 23 16 < t then
        let s := (s.modDie d (fun r => { r with hot := true, cool := none })).limiter 5
        if s.changing d then s.modDie d (fun r => { r with lmax := r.lmax.map (min 8) })
        else
          let s := (s.setLmaxes d (min 8)).dieNotice d
          if s.mhz d ≠ 800 ∧ s.canChange d 800 then s.beginChange d 800 (fun l => l) else s
      else if tgt < t then ((s.modDie d (fun r => { r with cool := none })).limiter 5).stepRate d false
      else if t + 3 ≤ tgt then
        match (s.die d).cool with
        | none => s.modDie d (fun r => { r with cool := some s.ns })
        | some u =>
          if u + 1000000 ≤ s.ns ∧ s.abovePeff (s.fld R.PWR_STAT 63 48) 1 = false then
            (s.modDie d (fun r => { r with cool := some s.ns })).stepRate d true
          else s
      else s.modDie d (fun r => { r with cool := none }))

/-- HBM_TEMPERATURE_LOOP (R468): request slots are withheld an eighth at a time. -/
def execHbmTemperatureLoop (st : StackId) (t : BitVec 8) (s : State) : Out :=
  .next (
    let x := Sparse.get (fun _ => ((0, 0) : Nat × Nat)) s.sys.pwr.slots st.val
    let tgt := s.fld R.PWR_THERM 15 8
    let put (s : State) (n : Nat) : State :=
      let m := Sparse.set (fun _ => (0, 0)) s.sys.pwr.slots st.val (n, s.ns)
      let s := s.modPwr (fun p => { p with slots := m })
      let held := sumOf (s.sys.pwr.slots.map (fun e => e.2.1))
      let n := 8 * Variant.stackCount s.variant
      s.qosFall 2 s.partsLive (n - held) n
    if s.governs = false ∨ s.stackCap st.val = 0 then s
    else if tgt < t.toNat then
      let s := s.limiter 6
      if x.1 < 6 ∧ (x.1 = 0 ∨ x.2 + 1000000 ≤ s.ns) then put s (x.1 + 1) else s
    else if t.toNat + 3 < tgt ∧ 0 < x.1 ∧ x.2 + 10000000 ≤ s.ns then put s (x.1 - 1)
    else s)

/-- POWER_LOOP (R468, R469): `watts` is the average over TWIN. -/
def execPowerLoop (watts : BitVec 16) (s : State) : Out :=
  .next (
    let w := watts.toNat
    let s := s.setFld R.PWR_STAT 63 48 w
    if s.governs = false then s
    else if s.abovePeff w 1 then
      let d := if (s.die 0).amps * s.mv 0 < (s.die 1).amps * s.mv 1 then 1 else 0
      let s := s.limiter (if s.fld R.PWR_LIMIT 31 16 < w then 1 else 2)
      (s.modPwr (fun p => { p with low := none })).stepRate d false
    else if s.abovePeff (100 * w) 95 = false then
      match s.sys.pwr.low with
      | none => s.modPwr (fun p => { p with low := some s.ns })
      | some t =>
        let d := if s.mhz 1 < s.mhz 0 then 1 else 0
        if t + 1000000 ≤ s.ns ∧ (s.die d).tj ≤ s.fld R.PWR_THERM 31 24 then
          (s.modPwr (fun p => { p with low := some s.ns })).stepRate d true
        else s
    else s.modPwr (fun p => { p with low := none }))

/-- Write PWR_TIN (R466, R474, R517). -/
def State.wrTin (s : State) (v : Word64) : State :=
  if bits v 31 8 ≠ 0 then s.regErr R.PWR_TIN 0x0012
  else if 80 < bits v 7 0 then (s.satInc R.TOP_INPUT_STAT 15 8).setBitOf R.TOP_INPUT_STAT 24
  else
    let s := s.setFld R.PWR_TIN 7 0 (bits v 7 0)
    ((s.setFld R.PWR_STAT 0 0 0).setFld R.PWR_STAT 39 32 (bits v 7 0)).modPwr (fun p => { p with tinAt := s.ns })

/-- TIN_STALE (R466). -/
def execTinStale (s : State) : Out :=
  .next (
    if s.sys.pwr.tinAt + s.fld R.PWR_PLANT 7 0 * 100000000 ≤ s.ns then
      (s.setFld R.PWR_STAT 39 32 (s.fld R.PWR_THERM 7 0)).setBitOf R.PWR_STAT 0
    else s)

/-! ## Fixed limits, trip, rails (R471, R472, R512, R513) -/

/-- A change of a die's CCLK that has not relocked yet, so that its rate can still be replaced. -/
def State.turnable (s : State) (d : Nat) : Bool := decide (1 ≤ (s.die d).phase) && decide ((s.die d).phase ≤ 3)

/-- The fixed limits that follow the loss of the power core (R472). -/
def State.fixedLimits (s : State) : State :=
  let s := (s.modPwr (fun p => { p with fixed := true })).limiter 7
  (List.range 2).foldl (fun s d =>
    if s.turnable d then s.modDie d (fun r => { r with relock := some 800, lmax := r.lmax.map (fun _ => 8) })
    else if s.mhz d = 800 then s.setLmaxes d (fun _ => 8)
    else s.beginChange d 800 (fun _ => 8)) s

/-- THERMAL_TRIP (R471): the trip latches, CCLK stops, and every stack is placed in SELF_REFRESH. -/
def execThermalTrip (sensor : BitVec 9) (s : State) : Out :=
  .next (
    let x := sensor.toNat
    if (0x5F < x ∧ x < 0x100) ∨ 0x107 < x ∨ s.tripped then s
    else
      let s := (s.setFld R.PWR_TRIP 8 0 x).setBitOf R.PWR_TRIP 31
      (List.range 8).foldl (fun s i => if s.stackCap i = 0 then s else s.setDstate (0x340 + i) 5) s)

/-- AVS_RETRY (R512): a regulator has not answered; after the fourth failure AVS_ERR is set and the die's rate may not
rise. -/
def execAvsRetry (d : DieId) (s : State) : Out :=
  .next (
    let n := min 4 ((s.die d.val).avs + 1)
    let s := s.modDie d.val (fun r => { r with avs := n })
    if n = 4 then s.setBitOf R.TOP_INPUT_STAT 25 else s)

/-- RAIL_OUT_OF_RANGE (R513): the die goes to 0.8 GHz with LMAX 1 by its next change. -/
def execRailOutOfRange (d : DieId) (s : State) : Out :=
  .next (
    let d := d.val
    let s := s.setBitOf R.TOP_INPUT_STAT (27 - d)
    let s := s.modDie d (fun r => { r with railOut := some s.ns })
    if s.turnable d then s.modDie d (fun r => { r with relock := some 800, lmax := r.lmax.map (fun _ => 1) })
    else s.beginChange d 800 (fun _ => 1))

/-- RAIL_NORMAL_CONTROL (R513): the reading has stayed within ± 10 mV for 1 ms. -/
def execRailNormalControl (d : DieId) (s : State) : Out :=
  .next (match (s.die d.val).railOut with
    | some t => if t + 1000000 ≤ s.ns then s.modDie d.val (fun r => { r with railOut := none }) else s
    | none => s)

end Sys2Proof.Machine
end

