-- ==== Sys2Proof/Machine/Commit.lean ====
section
/-!
DEFINITION. COMMIT_AT: its scopes, its checks, and what the applying edge does (R266 to R272, R333, R334, R368, R369, R427,
R473).
-/

namespace Sys2Proof.Machine

/-! ## Scopes (R266) -/

/-- The live registers of a scope, each with its shadow, in the shadows' address order (R278, R279, R333, R374, R376, R427,
R475). -/
def scopeRegs (scope : Nat) : List (Nat × Nat) :=
  match scope with
  | 0 => [(R.CHR_CFG, R.CHR_CFG_SH), (R.CHR_LOAD, R.CHR_LOAD_SH)]
  | 1 =>
    (List.range 4).map (fun p => (R.LNK_PORT p, R.LNK_PORT_SH p)) ++ [(R.LNK_TOPO, R.LNK_TOPO_SH)] ++
      (List.range 32).map (fun i => (R.LNK_OVR i, R.LNK_OVR_SH i)) ++
      (List.range 4).flatMap (fun p => (List.range 8).flatMap (fun w =>
        [(R.LNK_CWIN_A p w, R.LNK_CWIN_A_SH p w), (R.LNK_CWIN_B p w, R.LNK_CWIN_B_SH p w)]))
  | 2 => (List.range 32).flatMap (fun i => [(R.LF_RT i 0, R.LF_RT_SH i 0), (R.LF_RT i 1, R.LF_RT_SH i 1)])
  | 3 =>
    (R.CHR_BARRIER_CFG, R.CHR_BARRIER_CFG_SH) ::
      (List.range 64).flatMap (fun g => (List.range 4).map (fun w => (R.LF_GRP g w, R.LF_GRP_SH g w)))
  | 4 => (List.range 16).map (fun p => (R.FE_PSHARE p, R.FE_PSHARE_SH p))
  | 5 => [(R.PWR_LIMIT, R.PWR_LIMIT_SH), (R.PWR_RAIL 0, R.PWR_RAIL_SH 0), (R.PWR_RAIL 1, R.PWR_RAIL_SH 1),
      (R.PWR_THERM, R.PWR_THERM_SH), (R.PWR_PLANT, R.PWR_PLANT_SH)]
  | _ => []

/-- The registers of every scope that a mask names. -/
def maskRegs (mask : Nat) : List (Nat × Nat) :=
  (List.range 6).flatMap (fun i => if mask.testBit i then scopeRegs i else [])

/-- A shadow register of a scope of the pending commit, whose writes are discarded (R272). -/
def State.shadowLocked (s : State) (a : Nat) : Bool :=
  match s.chr.commit with
  | some x => (maskRegs x.scope).any (fun r => r.2 == a)
  | none => false

/-- Every live register of the named scopes takes its shadow's value. -/
def State.copyShadows (s : State) (mask : Nat) : State := (maskRegs mask).foldl (fun s r => s.setReg r.1 (s.reg r.2)) s

/-! ## Consistency (R269, R334, R368, R369, R427, R473) -/

/-- One check of one field: whether it fails, its id, the field's bits and the shadow register. -/
abbrev FieldCheck := Bool × (Nat × Nat × Nat × Nat)

/-- A port faces a partner that runs BML-3. -/
def State.mx3Port (v : State) (p : Nat) : Bool :=
  (v.linksOf p).any (fun l => v.linkState l == 3 && decide (v.fld (R.LNK_STAT l) 59 58 = 3))

/-- A port that links are named for. -/
def State.portNamed (v : State) (p : Nat) : Bool := !(v.linksOf p).isEmpty

/-- The checks of the CHR scope (R269); `mx3` says which ports face partners that run BML-3. -/
def chrChecks (v : State) (mx3 : Nat → Bool) : List FieldCheck :=
  let a := R.CHR_CFG
  let sh := R.CHR_CFG_SH
  let role := v.fld a 31 30
  let parent := v.fld a 29 28
  let bken := v.bitOf a 27
  let backup := v.fld a 26 25
  let kids := v.fld a 24 21
  let kid (p : Nat) : Bool := kids.testBit p
  [(role = 3 && !mx3 parent, (0x0001, 29, 28, sh)),
   (bken && (!mx3 backup || backup == parent), (0x0002, 26, 25, sh)),
   (kid parent || bken && kid backup || (List.range 4).any (fun p => kid p && !mx3 p), (0x0003, 24, 21, sh)),
   (v.bitOf a 20 && role == 3, (0x0004, 20, 20, sh)),
   (decide (v.fld a 15 0 < 100), (0x0005, 15, 0, sh))]

/-- Two numbers of a list share a bit, or one direction serves two ports: what port `p` repeats of a port before it. -/
def State.portClash (v : State) (p hi lo : Nat) : Bool :=
  (List.range p).any (fun q => v.fld (R.LNK_PORT q) hi lo &&& v.fld (R.LNK_PORT p) hi lo != 0)

/-- Some port of a direction names links. -/
def State.dirNamed (v : State) (d : Nat) : Bool :=
  (List.range 4).any (fun p => decide (v.fld (R.LNK_PORT p) 15 13 = d) && v.portNamed p)

/-- The checks of the LNK scope (R334). -/
def lnkChecks (v : State) : List FieldCheck :=
  let size := v.xdim * v.ydim
  let ports := (List.range 4).flatMap (fun p =>
    let a := R.LNK_PORT p
    let sh := R.LNK_PORT_SH p
    let links := v.fld a 31 16
    let dir := v.fld a 15 13
    [(v.portClash p 31 16 || (List.range 16).any (fun l => links.testBit l && !v.variant.link l), (0x0101, 31, 16, sh)),
     (decide (4 < dir) || dir != 0 && (List.range p).any (fun q => decide (v.fld (R.LNK_PORT q) 15 13 = dir)), (0x0103, 15, 13, sh)),
     (v.portNamed p && decide (v.fld a 12 11 = 0), (0x0102, 12, 11, sh))])
  let t := R.LNK_TOPO_SH
  let topo : List FieldCheck :=
    [(decide (16384 < size), (0x0104, 55, 42, t)),
     (decide (1 < v.xdim) && !(v.dirNamed 1 && v.dirNamed 2), (0x0105, 55, 42, t)),
     (decide (1 < v.ydim) && !(v.dirNamed 3 && v.dirNamed 4), (0x0105, 41, 28, t)),
     (decide (v.xdim ≤ v.fld R.LNK_TOPO 27 14), (0x0104, 27, 14, t)),
     (decide (v.ydim ≤ v.fld R.LNK_TOPO 13 0), (0x0104, 13, 0, t))]
  let ovr := (List.range 32).flatMap (fun i =>
    let a := R.LNK_OVR i
    let sh := R.LNK_OVR_SH i
    let en := v.bitOf a 63
    [(en && !v.portNamed (v.fld a 33 32), (0x0106, 33, 32, sh)),
     (en && decide (size ≤ v.fld a 29 16), (0x0106, 29, 16, sh)),
     (en && decide (v.fld a 29 16 < v.fld a 13 0), (0x0106, 13, 0, sh))])
  let cwin := (List.range 4).flatMap (fun p => (List.range 8).flatMap (fun w =>
    let en (w : Nat) : Bool := v.bitOf (R.LNK_CWIN_A p w) 63
    let base (w : Nat) : Nat := v.fld (R.LNK_CWIN_B p w) 47 22
    [(en w && decide (800 ≤ v.fld (R.LNK_CWIN_A p w) 41 32), (0x0107, 41, 32, R.LNK_CWIN_A_SH p w)),
     (en w && (List.range w).any (fun x => en x && base x == base w), (0x0107, 47, 22, R.LNK_CWIN_B_SH p w))]))
  ports ++ topo ++ ovr ++ cwin

/-- A route breaks check 0x0202. -/
def State.badRoute (v : State) (rt : Nat) : Bool :=
  let len := natBits rt 19 16
  decide (8 < len) || (decide (0 < len) && !v.portNamed (natBits rt 1 0))

/-- The checks of the LF routing scope (R368). -/
def rtChecks (v : State) : List FieldCheck :=
  (List.range 32).flatMap (fun i =>
    let a := R.LF_RT i 0
    let en := v.bitOf a 63
    [(en && decide (v.xdim * v.ydim ≤ v.fld a 29 16), (0x0201, 29, 16, R.LF_RT_SH i 0)),
     (en && decide (v.fld a 29 16 < v.fld a 13 0), (0x0201, 13, 0, R.LF_RT_SH i 0)),
     (v.badRoute (v.fld (R.LF_RT i 1) 19 0), (0x0202, 19, 0, R.LF_RT_SH i 1))])

/-- The checks of the LF group scope (R369), the member list as it stands now. -/
def grpChecks (v : State) : List FieldCheck :=
  (List.range 64).flatMap (fun g =>
    let a := R.LF_GRP g 0
    let sh := R.LF_GRP_SH g 0
    let mode := v.fld a 63 62
    let bar := v.bitOf a 57
    let size := v.fld a 55 42 + 1
    let rank := v.fld a 41 28
    let used := mode == 1 || bar
    let ms := if used then v.lfMembers g else []
    let dim := v.xdim * v.ydim
    let chips : List Nat := ms.map (fun m => m.2)
    let rt (w hi lo : Nat) : FieldCheck := (v.badRoute (v.fld (R.LF_GRP g w) hi lo), (0x0305, hi, lo, R.LF_GRP_SH g w))
    [(decide (1 < mode), (0x0301, 63, 62, sh)),
     (mode == 1 && !v.bitOf (R.LF_CH_CFG (v.fld a 61 58)) 24, (0x0301, 61, 58, sh)),
     (!bar && ms.any (fun m => m.1 != 3), (0x0304, 57, 57, sh)),
     (v.bitOf a 56 && (bar || decide (size < 3)), (0x0306, 56, 56, sh)),
     (decide (dim < size), (0x0302, 55, 42, sh)),
     (decide (size ≤ rank), (0x0302, 41, 28, sh)),
     rt 1 51 32, rt 1 19 0, rt 2 51 32, rt 2 19 0,
     (used && (ms.any (fun m => m.1 == 0 || decide (dim ≤ m.2)) || !decide chips.Nodup ||
        !(ms.getD rank (0, 0) == (3, v.chipId))), (0x0303, 47, 16, R.LF_GRP_SH g 3))])

/-- The checks of the FE scope (R427). -/
def feChecks (v : State) : List FieldCheck :=
  partIds.flatMap (fun p =>
    let x := v.share p
    let valid := v.bitOf (R.MMU_PCFG p) 63
    [(valid && (decide (x < 1) || decide (64 < x)), (0x0401, 7, 0, R.FE_PSHARE_SH p)),
     (!valid && decide (x ≠ 0), (0x0402, 7, 0, R.FE_PSHARE_SH p))])

/-- TDP of a variant in W (R2). -/
def tdp : Variant → Nat
  | .a800 => 2200
  | .a640 => 1900
  | .n640 => 1500

/-- The checks of the PWR scope (R473). -/
def pwrChecks (v : State) : List FieldCheck :=
  let n := 16 * v.variant.slots
  let iarr := Config.iarr.toNat
  let isw := Config.isw.toNat
  let plimit := v.fld R.PWR_LIMIT 31 16
  let rails := (List.range 2).flatMap (fun c =>
    let a := R.PWR_RAIL c
    let sh := R.PWR_RAIL_SH c
    [(decide (1100 < v.fld a 47 32), (0x0502, 47, 32, sh)),
     (decide (v.fld a 31 16 * 65280 * 1000 < n * iarr * 1600), (0x0503, 31, 16, sh)),
     (decide (v.fld a 15 0 * 16000 < n * (iarr + 16 * isw)), (0x0504, 15, 0, sh))])
  let th := R.PWR_THERM_SH
  let pl := R.PWR_PLANT_SH
  let tj := v.fld R.PWR_THERM 31 24
  let tmax := v.fld R.PWR_THERM 23 16
  [(decide (plimit < 500) || decide (tdp v.variant < plimit), (0x0501, 31, 16, R.PWR_LIMIT_SH)),
   (decide (v.fld R.PWR_LIMIT 7 0 < 1), (0x0501, 7, 0, R.PWR_LIMIT_SH))] ++ rails ++
  [(decide (tmax ≤ tj), (0x0505, 31, 24, th)),
   (decide (110 < tmax), (0x0505, 23, 16, th)),
   (decide (95 < v.fld R.PWR_THERM 15 8), (0x0505, 15, 8, th)),
   (decide (tj ≤ v.fld R.PWR_THERM 7 0), (0x0505, 7, 0, th)),
   (decide (v.fld R.PWR_PLANT 31 16 = 0), (0x0506, 31, 16, pl)),
   (decide (v.fld R.PWR_PLANT 15 8 = 0), (0x0506, 15, 8, pl)),
   (decide (v.fld R.PWR_PLANT 7 0 = 0), (0x0506, 7, 0, pl))]

/-- The first field that fails in the view of the scopes named (R269): the shadows of those scopes, and what is live of
the others. The CHR checks follow those of the LNK scope when it is named without them. `extra` names ports that face BML-3
partners beside those whose links are UP. -/
def State.commitCheck (s : State) (mask : Nat) (extra : List (Fin 4)) : Option (Nat × Nat × Nat × Nat) :=
  let v := s.copyShadows mask
  let mx3 (p : Nat) : Bool := v.mx3Port p || extra.any (fun x => x.val == p)
  let on (i : Nat) (l : List FieldCheck) : List FieldCheck := if mask.testBit i then l else []
  firstOf (on 0 (chrChecks v mx3) ++ on 1 (lnkChecks v) ++ (if mask.testBit 1 && !mask.testBit 0 then chrChecks v mx3 else []) ++
    on 2 (rtChecks v) ++ on 3 (grpChecks v) ++ on 4 (feChecks v) ++ on 5 (pwrChecks v))

/-! ## The applying edge (R271, R333, R264, R363) -/

/-- A commit of the CHR scope (R264, R271): LOAD sets Chorus to CHR_LOAD and is cleared, and the discipline enters the
role's starting state. -/
def State.applyChr (s : State) : State :=
  let s : State :=
    if s.bitOf R.CHR_CFG 20 then
      let t : Nat := (s.reg R.CHR_LOAD).toNat * 256
      (s.chorusStep ((t : Int) - s.chorus.toNat)).setFld R.CHR_CFG 20 20 0
    else s
  let role := s.fld R.CHR_CFG 31 30
  let s := s.modChr (fun c => { c with
    trim := if role = 3 then c.trim else 0
    slew := 0
    meas := []
    good := 0
    backup := false
    syncGood := 0
    lastSync := none
    syncRej := 0
    root := if role = 3 then c.root else s.chipId })
  let s := (s.setFld R.CHR_STATE 28 28 0).setFld R.CHR_STATE 23 16 0
  match role with
  | 1 => s.chrEnter 2 0
  | 2 => s.chrEnter 1 0
  | _ => s.chrEnter 0 0

/-- A group whose entry a commit changed (R362, R363, R365): it is READY, or OFF, with a new epoch. Its started descriptors
keep the entry they latched, and their messages are of an old epoch from now on. -/
def State.applyGroup (s : State) (g : Nat) : State :=
  let s := (s.setPend g none).groupReady g
  if s.ringMode g then s else s.setFld (R.LF_GSTAT g) 63 61 0

/-- Every named live register changes at this edge (R271). Packets that wait at a port which an UP link has joined leave on
it (R319, R333). A compatibility window that does not change keeps its running
GGEN (R333). -/
def State.applyScopes (s : State) (mask : Nat) : State :=
  let keep : List (Nat × Word64) :=
    if mask.testBit 1 then
      (List.range 4).flatMap (fun p => (List.range 8).filterMap (fun w =>
        let b := R.LNK_CWIN_B p w
        let ggen := s.fld b 3 0
        if s.reg (R.LNK_CWIN_A p w) = s.reg (R.LNK_CWIN_A_SH p w) ∧
            setBits (s.reg b) 3 0 0 = setBits (s.reg (R.LNK_CWIN_B_SH p w)) 3 0 0 then
          some (b, BitVec.ofNat 64 ggen)
        else none))
    else []
  let changed : List Nat :=
    if mask.testBit 3 then
      (List.range 64).filter (fun g => (List.range 4).any (fun w => s.reg (R.LF_GRP g w) != s.reg (R.LF_GRP_SH g w)))
    else []
  let s := s.copyShadows mask
  let s := if mask.testBit 1 then (List.range 4).foldl (fun s p => s.drainAll p) s else s
  let s := keep.foldl (fun s e => s.setFld e.1 3 0 e.2.toNat) s
  let s := changed.foldl (fun s g => s.applyGroup g) s
  if mask.testBit 0 then s.applyChr else s

/-- Firmware overwrites a range of the flash: what the sideband had put there is gone. -/
def overFlash (b : BootState) (lo hi : Nat) : BootState :=
  { b with bytes := Sparse.drop b.bytes (fun a => decide (lo ≤ a) && decide (a < hi)) }

/-- The settings block takes the live values of the PWR, CHR and LNK scopes and of TOP_REGEN_CFG (R483, R485): in the
format of the running image, or while it is in TRIAL in one that PREV can read. -/
def State.saveSettings (s : State) : State :=
  let b := s.sys.boot
  let fmt : Nat := match b.slots with
    | some r =>
      let act := if r.act = 0 then r.a else r.b
      let prev := if r.prev = 0 then r.a else r.b
      if act.state = 3 then min act.setMax prev.setMax else act.setMax
    | none => (match b.settings with | some x => x.fmt | none => 0)
  let fill : Bool := match b.settings with | some x => x.bootFill | none => true
  let regs := (maskRegs 0b100011).map (fun r => (r.2, s.reg r.1)) ++ [(R.TOP_REGEN_CFG, s.reg R.TOP_REGEN_CFG)]
  (s.setSys { s.sys with boot := { overFlash b 0x402_0000 0x404_0000 with setRec := b.setRec.write ⟨fmt, fill, regs⟩ } })

/-- An accepted commit applies (R271). It is late when the edge before had already passed its instant. -/
def State.applyCommit (s : State) (x : Commit) (late : Bool) : State :=
  let at_ := s.chorusNs
  let s := s.applyScopes x.scope
  let s := s.endCommit x 0 at_ late
  if x.scope.testBit 0 || x.scope.testBit 1 || x.scope.testBit 5 then s.saveSettings else s

/-- COMMIT_APPLY (R271): the first edge at which master Chorus equals or passes the instant. It is late where a
step has passed the instant (R258), and where more than the 0x101 that one edge adds lies between. -/
def execCommitApply (s : State) : Out :=
  .next (match s.chr.commit with
    | none => s
    | some x =>
      if s.chorus.toNat < x.target.toNat then s
      else s.applyCommit x (x.passed || decide (x.target.toNat + 0x101 ≤ s.chorus.toNat)))

/-! ## The commands (R267, R268, R272) -/

/-- The checks of R268 in their order: the status, and for check 5 the field. -/
def State.commitChecks (s : State) (a : List Byte) : Option (Status × Nat × Nat × Nat × Nat) :=
  let flags := leAt a 9 1
  let mask := leAt a 0xC 4
  let target := leAt a 0 8 * 256 + leAt a 8 1
  if flags / 2 ≠ 0 ∨ setIn a 0xA 2 then some (0x0A0A, 0, 0, 0, 0)
  else if mask = 0 ∨ 64 ≤ mask then some (0x0A05, 0, 0, 0, 0)
  else if s.variant.lf = false ∧ (mask.testBit 2 ∨ mask.testBit 3) then some (0x0011, 0, 0, 0, 0)
  else if s.chr.commit.isSome then some (0x0A03, 0, 0, 0, 0)
  else
    match s.commitCheck mask [] with
    | some (id, hi, lo, addr) => some (0x0A04, id, hi, lo, addr)
    | none => if flags % 2 = 1 ∨ s.chorus.toNat < target then none else some (0x0A02, 0, 0, 0, 0)

/-- The commit that an argument block asks for. -/
def commitOf (a : List Byte) (f : Nat) (slot : Option Nat) (tag : Nat) : Commit :=
  ⟨BitVec.ofNat 72 (leAt a 0 8 * 256 + leAt a 8 1), leAt a 0xC 4, decide (leAt a 9 1 % 2 = 1), false, f, slot, tag⟩

/-- A commit whose instant had passed when it was accepted applies at once, late (R271). -/
def State.commitNow (s : State) (was : Bool) : State :=
  match s.chr.commit with
  | some x => if !was && x.lateOk && decide (x.target.toNat ≤ s.chorus.toNat) then s.applyCommit x true else s
  | none => s

/-- COMMIT_AT (R267, R268): checked against the shadows and accepted, or rejected with its result block. -/
def execCommitAt (cmd : Cmd) (s : State) : Out :=
  let was := s.chr.commit.isSome
  match s.cmdRun 0x30 cmd (fun s f slot tag a =>
    match s.commitChecks a with
    | some (st, id, hi, lo, addr) => .reject s st (resultBlock st id hi lo addr 0 false)
    | none => .accept (s.modChr (fun c => { c with commit := some (commitOf a f slot tag) }))) with
  | .next s => .next (s.commitNow was)
  | o => o

/-- COMMIT_CANCEL (R272): the pending commit ends without applying, its own command with a status the manual does not name;
with none pending, GS_0A0B. -/
def execCommitCancel (cmd : Cmd) (s : State) : Out :=
  s.cmdRun 0x31 cmd (fun s _ _ _ _ =>
    match s.chr.commit with
    | none => .done s (replyStatus 0x0A0B)
    | some x =>
      if x.target.toNat ≤ s.chorus.toNat then .done s (replyStatus 0x0A0B)
      else
        let st := Config.cancelledStatus s.free
        .done (s.takeFree.leaveCommit x (resultBlock st 0 0 0 0 0 false)) (replyStatus 0))

end Sys2Proof.Machine
end

