-- ==== Sys2Proof/Machine/Boot.lean ====
section
/-!
DEFINITION. Reset and bring-up: what each reset keeps, the slot and settings records, and the boot steps (R254, R384, R397 to
R399, R477 to R485, R519).
-/

namespace Sys2Proof.Machine

/-! ## Records (R479, R482, R483) -/

/-- What the slot record holds of slot `i`, 0 for A. -/
def slotInfo (r : SlotRec) (i : Nat) : SlotInfo := if i = 0 then r.a else r.b

/-- The slot record with slot `i` changed. -/
def putSlot (r : SlotRec) (i : Nat) (x : SlotInfo) : SlotRec := if i = 0 then { r with a := x } else { r with b := x }

/-- The slot record with slot `i` marked BAD. -/
def markBad (r : SlotRec) (i : Nat) (why : Status) : SlotRec :=
  putSlot r i { slotInfo r i with state := 5, bad := why.toNat }

/-- The 32 bytes of FWID (R479). -/
def fwid (r : SlotRec) (i : Nat) : List Byte :=
  let x := slotInfo r i
  leBytes 8 x.version ++ leBytes 1 i ++ leBytes 1 x.state ++ leBytes 1 x.setMin ++ leBytes 1 x.setMax ++ leBytes 4 x.svn ++
    leBytes 16 x.digest

/-- The selection of R482: the record as it is left, the slot to boot, and the status of the fall-back. -/
def selectSlot (sig : Nat → Bool) : Nat → SlotRec → Nat → SlotRec × Option Nat × Nat
  | 0, r, why => (r, none, why)
  | n + 1, r, why =>
    let x := slotInfo r r.act
    let back (st : Status) : SlotRec := { markBad r r.act st with act := r.prev }
    if x.state = 4 then (if sig r.act then (r, some r.act, why) else selectSlot sig n (back 0x1203) 0x1203)
    else if x.state = 3 then
      if 2 ≤ x.tries then selectSlot sig n (back 0x1208) 0x1208
      else if sig r.act then (putSlot r r.act { x with tries := x.tries + 1 }, some r.act, why)
      else selectSlot sig n (back 0x1203) 0x1203
    else if (slotInfo r (1 - r.act)).state = 4 ∧ sig (1 - r.act) then
      (r, some (1 - r.act), if why = 0 then 0x120A else why)
    else (r, none, why)

/-- Change what the boot keeps. -/
def State.modBoot (s : State) (f : BootState → BootState) : State := (s.setSys { s.sys with boot := f s.sys.boot })

/-- The shadows take the settings block's values (R483). -/
def State.loadSettings (s : State) (x : Settings) : State :=
  x.regs.foldl (fun s e => if e.1 = R.TOP_REGEN_CFG then s else s.setReg e.1 e.2) s

/-- Why the settings block is unreadable to an image (R483); 0 when it is not. -/
def State.settingsReason (s : State) (img : SlotInfo) (x : Option Settings) (mx3 : List (Fin 4)) : Nat :=
  match x with
  | none => 1
  | some x =>
    if x.fmt < img.setMin then 2
    else if img.setMax < x.fmt then 3
    else if ((s.loadSettings x).commitCheck 0b100011 mx3).isSome then 4
    else 0

/-- The slot whose image runs (R501). -/
def State.runSlot (s : State) : Nat := s.fld R.TOP_BOOT_STAT 59 59

/-- FWID of the firmware that runs. -/
def State.runFwid (s : State) : List Byte :=
  match s.sys.boot.slots with
  | some r => fwid r s.runSlot
  | none => List.replicate 32 0#8

/-- The fields of FW_SHED_STAT that follow the slot record (R504). -/
def State.syncShed (s : State) : State :=
  match s.sys.boot.slots with
  | none => s
  | some r =>
    let a := R.FW_SHED_STAT
    ((s.setFld a 59 57 r.a.state).setFld a 56 54 r.b.state).setFld a 53 53 r.act

/-- Write the slot record (R478). -/
def State.writeSlots (s : State) (r : SlotRec) : State := (s.modBoot (fun b => { overFlash b 0x400_0000 0x402_0000 with slotRec := b.slotRec.write r })).syncShed

/-- A SHED notice on the PF's ring (R494): 0x01 TRIAL, 0x02 confirmed, 0x03 reverted, 0x04 FALLBACK, 0x05 RESUMED. -/
def State.shedNotice (s : State) (event why : Nat) : State :=
  s.notice 0 0x0D 0 (leBytes 1 (s.fld R.FW_SHED_STAT 63 60) ++ leBytes 1 event ++ leBytes 1 why ++ leBytes 5 0 ++ s.runFwid) none

/-! ## Resets (R10, R254, R385, R395, R437, R476, R481, R519, R526, R539) -/

/-- Power-on or cold reset: the machine of State.reset. What the world outside holds stays: fuses, flash, what already
left the chip, and the commands on their way. Spare rows stay used, because the inventory record keeps them (R392, R500). -/
def State.coldReset (s : State) : State :=
  let b := s.sys.boot
  let posns := (List.range 832).foldl (fun m p =>
    Sparse.set (fun _ => PosState.reset) m p { PosState.reset with pad := { Pad.reset with spares := (s.pos p).pad.spares } }) []
  { State.reset with
    variant := s.variant
    pending := s.pending
    free := s.free
    hostOut := s.hostOut
    cpls := s.cpls
    msix := s.msix
    posns := posns
    hbm := { HbmState.reset with spares := s.hbm.spares, hard := s.hbm.hard }
    sys := { SysState.reset with
      boot := { b with warm := none, lost := none, filled := [] }
      shed := { SysState.reset.shed with tmo := s.sys.shed.tmo }
      tap := s.sys.tap } }

/-- The registers that a warm reset keeps: the discipline's state and parent (R254), the shadows (R272),
HBM state, counts and scrubbers (R394, R396, R481), the trip and the domain records (R471, R476), and the counts and input
flags of TOP_ (R502, R526, R539). -/
def warmKeeps (a : Nat) : Bool :=
  let hbmOff := (a - R.hbmBase) % 0x100
  a == R.CHR_STATE || a == R.CHR_CFG || a == R.CHR_CFG_SH || a == R.CHR_LOAD_SH || a == R.CHR_BARRIER_CFG_SH ||
    ([1, 2, 3, 4, 5].any (fun i => (scopeRegs i).any (fun r => r.2 == a))) ||
    (decide (R.hbmBase ≤ a) && decide (a < R.hbmBase + 0x800) && hbmOff != 0x18) ||
    (decide (R.HBM_CBKT 0 ≤ a) && decide (a < R.HBM_CBKT 832)) ||
    a == R.PWR_TRIP || (decide (R.PWR_RCNT 0 ≤ a) && decide (a < R.pwrBase + 0x4000)) ||
    a == R.TOP_INPUT_STAT || a == R.TOP_CKTEST || a == R.TOP_REGEN_STAT || a == R.TOP_INV_CORE || a == R.TOP_INV_SHIP ||
    a == R.TOP_INV_MEM || a == R.TOP_INV_LANE

/-- A position after warm reset: its scratchpad is unwritten, its TLB empty; its counts and used spare rows stay. -/
def PosState.warm (x : PosState) : PosState :=
  { PosState.reset with pad := { Pad.reset with ueCnt := x.pad.ueCnt, spares := x.pad.spares } }

/-- A function's mailbox page after warm reset (R437); its PCIe configuration stays unless PCIe resets too. -/
def FnState.warm (x : FnState) : FnState := { FnState.reset with aer := x.aer, msixMask := x.msixMask, msixPend := x.msixPend, msixTab := x.msixTab }

/-- Warm reset begins (R254, R310, R385, R437, R481, R519): what it does not keep returns to reset, a pending commit is
discarded (R272), and the warm path is to come. -/
def State.warmBegin (s : State) (case : Nat) (pcie : Bool) : State :=
  let boots := s.fld R.TOP_BOOT_STAT 31 0
  let c := s.chr
  let lost : Option Nat := match c.commit with
    | some x => if x.slot.isSome then some x.func else none
    | none => s.sys.boot.lost
  let fns := if pcie then [] else
    (List.range 64).foldl (fun m f => Sparse.set (fun _ => FnState.reset) m f (s.fn f).warm) []
  let posns := (List.range 832).foldl (fun m p => Sparse.set (fun _ => PosState.reset) m p (s.pos p).warm) []
  let links := (List.range 16).foldl (fun m l => Sparse.set (fun _ => LinkRec.reset) m l
    { LinkRec.reset with dropped := (s.link l).dropped, degraded := (s.link l).degraded, untested := (s.link l).untested }) []
  let sb : SbState := if s.sys.sb.waits then { s.sys.sb with status := 0x0A06, waits := false } else s.sys.sb
  let fw : FwState := { FwState.reset with
    fns := fns
    numVfs := if pcie then 0 else s.fw.numVfs
    log := s.fw.log
    logSeq := s.fw.logSeq
    counts := s.fw.counts
    dump := s.fw.dump
    spdm := s.fw.spdm
    certs := s.fw.certs
    spdmOut := s.fw.spdmOut }
  let sys : SysState := { SysState.reset with
    links := links
    lnkOut := s.sys.lnkOut
    pwr := { SysState.reset.pwr with doms := s.sys.pwr.doms, tinAt := s.ns }
    boot := { s.sys.boot with
      lost := lost
      warm := (match s.sys.boot.warm with | some x => some x | none => some case) }
    shed := { SysState.reset.shed with tmo := s.sys.shed.tmo }
    sb := sb
    tap := s.sys.tap
    peUp := !pcie && s.sys.peUp
    tapReset := s.sys.tapReset }
  let s : State := { s with
    regs := s.regs.filter (fun e => warmKeeps e.1)
    cores := []
    posns := posns
    hbm := { s.hbm with runs := [] }
    fe := FeState.reset
    chr := { c with fracs := [], commit := none, arrivals := [], arrAt := [], notices := [] }
    fw := fw
    sys := sys
    lfTlb := []
    net := []
    diag := [] }
  s.setFld R.TOP_BOOT_STAT 31 0 boots

/-! ## Cores (step 7 of R480, R498, R499, R545) -/

/-- A part as shipped (R4, R545): every slot is bound, and the first clusters hold its spare positions. -/
def shippedInv (v : Variant) : List InvPos :=
  (List.range 832).map (fun p =>
    let n := Variant.slots v
    let j := p % 26
    if j < n then ⟨1, p / 26 * n + j⟩ else if j = n ∧ p / 26 < shippedSpares then ⟨2, 0x3FF⟩ else ⟨0, 0x3FF⟩)

/-- An entry of an inventory. -/
def invAt (l : List InvPos) (p : Nat) : InvPos := l.getD p ⟨0, 0x3FF⟩

/-- The first spare position of a cluster. -/
def spareOf (l : List InvPos) (c : Nat) : Option Nat :=
  ((List.range 26).map (· + 26 * c)).find? (fun p => (invAt l p).state == 2)

/-- A pending retirement completes at bring-up (R499): the slot moves to the spare, or is unbound. -/
def finishRetire (l : List InvPos) (p : Nat) : List InvPos :=
  if (invAt l p).state = 3 then
    match spareOf l (p / 26) with
    | some q => (l.set q ⟨1, (invAt l p).slot⟩).set p ⟨4, 0x3FF⟩
    | none => l.set p ⟨4, 0x3FF⟩
  else l

/-- The inventory that step 7 leaves: failing positions are FAILED, pending retirements are done. -/
def settleInv (l : List InvPos) (fails : Nat → Bool) : List InvPos :=
  let l := (List.range 832).map (fun p =>
    let x := invAt l p
    if fails p && (x.state == 1 || x.state == 2) then ⟨5, 0x3FF⟩ else x)
  (List.range 832).foldl finishRetire l

/-- Spare scratchpad rows left at a position (R500): 8 for each of 32 banks. -/
def State.srowLeft (s : State) (p : Nat) : Nat := 256 - sumOf ((s.pos p).pad.spares.map (fun e => e.2))

/-- SPARE_POS of a cluster follows the positions' states (R24). -/
def State.syncSpare (s : State) (c : Nat) : State :=
  let q := (List.range 26).find? (fun j => s.posState (26 * c + j) == 2)
  s.setFld (R.TOP_CLUSTER c) 20 16 (q.getD 0x1F)

/-- The inventory as the positions are now. -/
def State.invNow (s : State) : List InvPos :=
  (List.range 832).map (fun p => ⟨s.posState p, s.fld (R.TOP_POS p) 9 0⟩)

/-- Firmware writes the inventory record. -/
def State.writeInv (s : State) : State := s.modBoot (fun b => { overFlash b 0x404_0000 0x408_0000 with invRec := b.invRec.write s.invNow })

/-- Step 7 of R480: the slots are bound as the inventory has them. -/
def State.bindAll (s : State) (l : List InvPos) : State :=
  let s := (List.range 832).foldl (fun s p =>
    let x := invAt l p
    let left := if x.state = 0 then 0 else s.srowLeft p
    let s := s.setReg (R.TOP_POS p) (BitVec.ofNat 64 (x.state % 8 * 2 ^ 29 + left * 2 ^ 16 + x.slot % 0x400))
    if x.state = 1 ∧ x.slot < s.variant.cores then
      s.setReg (R.TOP_SLOT_MAP x.slot) (BitVec.ofNat 64 (2 ^ 30 + p))
    else s) s
  ((List.range 32).foldl (fun s c => s.syncSpare c) s).writeInv

/-! ## The boot steps (R480, R481, R484, R493) -/

/-- PHASE and REASON of a boot that ends in RECOVERY. -/
def State.recovery (s : State) (why : Nat) : State :=
  (s.setFld R.TOP_BOOT_STAT 63 60 8).setFld R.TOP_BOOT_STAT 47 32 why

/-- Steps 5 and 6: the checker self-test (R397 to R399), and at power-on the stacks with the hard repairs of the
inventory (R392), the log ring and the crash dump (R430). -/
def State.bootTest (s : State) (inp : BootInputs) (cold : Bool) : State :=
  let s := inp.deadLnk.foldl (fun s l => s.modLink l.val (fun r => { r with untested := true })) s
  let offs := inp.offline.filter (fun x => s.variant.stack x.val && !s.stackOff x.val)
  let a := R.TOP_CKTEST
  let s := s.setFld a 57 48 (s.fld a 57 48 + inp.failPos.length)
  let s := s.setFld a 47 38 inp.pcDup.toNat
  let s := s.setFld a 37 34 (s.fld a 37 34 + offs.length)
  let s := s.setFld a 33 29 (((List.range 16).filter (fun l => s.variant.link l && (s.link l).untested)).length)
  let s := s.setBitOf a 63
  let down (x : Nat) : Bool := inp.offline.any (fun y => y.val == x) || (cold && inp.untrained.any (fun y => y.val == x))
  (List.range 8).foldl (fun s x =>
    if s.variant.stack x = false ∨ s.stackOff x then s
    else
      let s : State :=
        if cold then
          let used := sumOf ((List.range 64).map (fun i => Sparse.get (fun _ => 0) s.hbm.spares (64 * x + i)))
          (s.setFld (R.HBM_STAT x) 31 30 1).setFld (R.HBM_PPR x) 11 0 (0x800 - used)
        else s
      if down x then ((s.setFld (R.HBM_STAT x) 0 0 1).setFld (R.HBM_STAT x) 31 30 0).logEvent 0 0x0006 1 [x] else s) s

/-- Step 8: the boot fill, and the scrubbers. -/
def State.bootFillStep (s : State) : State :=
  let fill : Bool := match s.sys.boot.settings with | some x => x.bootFill | none => true
  if fill then
    let s := s.hbmFill 0 s.fwBase 0 false s.offMask
    (s.modBoot (fun b => { b with filled := [(0, s.fwBase)] })).scrubbersOn
  else s

/-- Step 10: the CHR and LNK scopes of the settings apply; a warm boot whose CHR_CFG is what it was leaves the discipline
as it is (R254). -/
def State.bootCommit (s : State) (cold : Bool) : State :=
  if cold = false ∧ s.fld R.CHR_CFG 31 0 = s.fld R.CHR_CFG_SH 31 0 then s.applyScopes 0b000010 else s.applyScopes 0b000011

/-- The shed stage that a boot finds (R493), with the timer restarted for a TRIAL. -/
def State.bootShed (s : State) (r : SlotRec) : State :=
  let st := (slotInfo r (1 - r.act)).state
  let a := R.FW_SHED_STAT
  if (slotInfo r r.act).state = 3 then
    let s := s.setFld a 63 60 6
    ((s.setSys { s.sys with shed := { s.sys.shed with since := s.ns } }) : State).shedNotice 0x05 0
  else if st = 1 ∨ st = 2 then s.setFld a 63 60 2
  else s.setFld a 63 60 0

/-- A protection region as the security core sets it: a power of two from 4 KiB to 4 GiB, aligned to its size (R431). -/
def protOf (x : Nat × Nat × Nat) : Prot :=
  let lg := 12 + x.2.1 % 21
  ⟨x.1 % 2 ^ (48 - lg) * 2 ^ lg, lg, x.2.2.testBit 0, x.2.2.testBit 1, x.2.2.testBit 2⟩

/-- The security core sets every processor's regions, which stay until the next reset (R431). -/
def State.setRegions (s : State) : State :=
  let m := (List.range 35).foldl (fun m i =>
    Sparse.set (fun _ => []) m i ((List.range 16).map (fun n => protOf (Config.fwRegion i n s.free)))) s.fw.prot
  (s.setFw { s.fw with prot := m } : State).takeFree

/-- Every watchdog starts anew. -/
def State.kickAll (s : State) : State :=
  let m := (List.range 35).foldl (fun m i => Sparse.set (fun _ => 0) m i s.ns) s.fw.kicked
  (s.setFw { s.fw with kicked := m })

/-- Steps 3 to 10, once the image of slot `a` runs; `why` is the status of a fall-back and `code` the reason code of
R483. -/
def State.bootSteps (s : State) (inp : BootInputs) (cold : Bool) (r : SlotRec) (a why code : Nat) : State :=
  let reason := s.settingsReason (slotInfo r a) s.sys.boot.settings inp.mx3
  let s := s.setFld R.TOP_BOOT_STAT 59 59 a
  let s := s.setFld R.TOP_BOOT_STAT 58 58 (if why = 0 then 0 else 1)
  let s := s.setFld R.TOP_BOOT_STAT 47 32 why
  let s := s.setFld R.TOP_BOOT_STAT 57 57 (if reason = 0 then 0 else 1)
  let s := ((s.setFld (R.FW_STAT 0) 63 61 2).writeSlots r).kickAll.setRegions
  if inp.failProc.any (fun i => i.val == schedProc) then
    s.takeFree.recovery (Config.bootStatus s.free).toNat
  else
    let s := (List.range 34).foldl (fun s j =>
      s.setFld (R.FW_STAT (j + 1)) 63 61 (if inp.failProc.any (fun i => i.val == j + 1) then 4 else 2)) s
    let s := if reason = 0 then (match s.sys.boot.settings with
        | some x =>
          let s := (s.loadSettings x).copyShadows 0b100000
          (x.regs.filter (fun e => e.1 == R.TOP_REGEN_CFG)).foldl (fun s e => s.setReg e.1 e.2) s
        | none => s)
      else s
    let s := s.bootTest inp cold
    if inp.deadBr then s.takeFree.recovery (Config.bootStatus s.free).toNat
    else
      let s : State := if cold then (s.setFw { s.fw with log := [], logSeq := 0, counts := [], dump := Dump.reset }) else s
      let fails (p : Nat) : Bool := inp.failPos.any (fun x => x.val == p) || inp.failTest.any (fun x => x.val == p)
      let s := s.bindAll (settleInv (s.sys.boot.inv.getD (shippedInv s.variant)) fails)
      let s := if s.procState 1 = 2 then (s.programRamp 0).programRamp 1 else s.fixedLimits
      let s : State :=
        if cold then
          ((List.range 832).foldl (fun s p => if s.posState p = 2 then s.setDstate p 4 else s) s).bootFillStep
        else s
      let s := (List.range 16).foldl (fun s l => (s.lnkOp l 1 true).1) s
      let s := if reason = 0 then s.bootCommit cold else s
      let s := s.capSync.wrapInc R.TOP_CAP_GEN 31 0
      let s := (s.setFld R.TOP_BOOT_STAT 63 60 7).bootShed r
      if code = 0 then s else s.shedNotice 0x04 code

/-- Steps 2 and 3: the slot is selected (R482, R524), and the settings decide on a fall-back of their own (R484). -/
def State.bootFrom (s : State) (inp : BootInputs) (cold : Bool) : State :=
  let s := s.setFld R.TOP_BOOT_STAT 31 0 (s.fld R.TOP_BOOT_STAT 31 0 + 1)
  let s := (s.setFld R.TOP_BOOT_STAT 56 56 (!cold).toNat).setFld (R.FW_STAT 0) 63 61 1
  match if inp.flash then s.sys.boot.slots else none with
  | none => s.recovery 0x120A
  | some r0 =>
    let sig (i : Nat) : Bool := if i = 0 then inp.sigA else inp.sigB
    match selectSlot sig 4 r0 0 with
    | (r, none, _) => (s.writeSlots r).recovery 0x120A
    | (r, some a, why) =>
      let s := s.writeSlots r
      let code := s.settingsReason (slotInfo r a) s.sys.boot.settings inp.mx3
      let p := slotInfo r r.prev
      let inRange : Bool := match s.sys.boot.settings with
        | some x => decide (p.setMin ≤ x.fmt) && decide (x.fmt ≤ p.setMax)
        | none => false
      if inp.failProc.any (fun i => i.val == 0) then s.setFld R.TOP_BOOT_STAT 63 60 1
      else if 2 ≤ code ∧ r.prev ≠ a ∧ p.state = 4 ∧ inRange = true then
        let r := { markBad r a 0x1205 with act := r.prev, why := code }
        let s := (s.setFld R.TOP_BOOT_STAT 31 0 (s.fld R.TOP_BOOT_STAT 31 0 + 1)).setFld R.TOP_BOOT_STAT 56 56 1
        (s.setFld R.FW_SHED_STAT 47 32 0x1205).bootSteps inp cold r r.act 0x1205 code
      else
        let bad := (slotInfo r (1 - a)).bad
        (s.setFld R.FW_SHED_STAT 47 32 bad).bootSteps inp cold r a why 0

/-- The records that the boot reads: what firmware last left in the flash, else what the flash is found to hold (R478). -/
def State.readFlash (s : State) (inp : BootInputs) : State :=
  s.modBoot (fun b =>
    if b.known then b else { b with known := true, slotRec := inp.slots, setRec := inp.settings, invRec := inp.inv })

/-- BRING_UP (R480): the steps after reset is released, at which the sideband samples its straps (R517); with a PLL that does
not lock, PHASE stays RESET. -/
def execBringUp (inp : BootInputs) (s : State) : Out :=
  .next (
    if s.fld R.TOP_BOOT_STAT 63 60 ≠ 0 ∨ s.sys.boot.warm.isSome then s
    else
      let s : State := s.setSys { s.sys with tapReset := false, sb := { s.sys.sb with addr := 0x58 + inp.straps.toNat } }
      if inp.pll then (s.readFlash inp).bootFrom inp true else s)

/-- The shadow registers are as they were in another state (R272). -/
def State.keepShadows (s old : State) : State := (maskRegs 0b111111).foldl (fun s r => s.setReg r.2 (old.reg r.2)) s

/-- WARM_RESET (R481, R272, R310): the warm path runs; the notices of a discarded commit and of an escalation follow. -/
def execWarmReset (inp : BootInputs) (s : State) : Out :=
  .next (match s.sys.boot.warm with
    | none => s
    | some case =>
      let lost := s.sys.boot.lost
      let s := s.modBoot (fun b => { b with warm := none, lost := none })
      let s : State := (s.setSys { s.sys with peUp := true })
      let s := ((s.readFlash inp).bootFrom inp false).keepShadows s
      let s := match lost with
        | some f => s.notice f 5 0x0A06 (resultBlock 0x0A06 0 0 0 0 0 false) none
        | none => s
      if case = 0 then s else s.noticeAll 7 0 (leBytes 1 case))

/-- POWER_ON_RESET (R519). -/
def execPowerOnReset (s : State) : Out :=
  let s := s.coldReset
  .next (s.setSys { s.sys with tap := .idcode })

/-- COLD_RESET (R519): RESET_N stays low until BRING_UP. -/
def execColdReset (s : State) : Out :=
  let s := s.coldReset
  .next (s.setSys { s.sys with tapReset := true })

/-- PCIE_RESET (R519): PCIe configuration resets, and the warm path follows without records, dump or notice. -/
def execPcieReset (s : State) : Out := .next (s.warmBegin 0 true)

end Sys2Proof.Machine
end

