-- ==== Sys2Proof/Machine/Firmware.lean ====
section
/-!
DEFINITION. Firmware processors: region faults, watchdogs, restarts (R432, R433, R454), the crash dump (R451, R452), and
whole-device escalation (R309, R310).
-/

namespace Sys2Proof.Machine

/-! ## Crash dump (R451, R452) -/

/-- SEQ of the oldest record in the log ring. -/
def State.firstSeq (s : State) : Nat := match s.fw.log.getLast? with | some r => r.seq | none => s.fw.logSeq + 1

/-- Write a crash dump: kind 1 DEVICE, whose length and truncation are open, or 2 PROC, which yields to an unread DEVICE
dump. -/
def State.writeDump (s : State) (kind cause : Nat) : State :=
  let old := s.fw.dump
  let common := 64 + 35 * 262144 + 1048576
  let len := if kind = 1 then common + Config.dumpExtra s.free else common
  let d : Dump := ⟨kind, cause, false, decide (old.kind ≠ 0) && !old.read, s.chorusNs, len,
    decide (kind = 1) && Config.dumpTruncated s.free, s.firstSeq, s.runFwid, s.fw.log.reverse⟩
  if kind = 2 ∧ old.kind = 1 ∧ old.read = false then s
  else ((s.setFw { s.fw with dump := d }) : State).takeFree

/-! ## Escalation (R309, R310) -/

/-- The four steps of R310, up to the start of the warm reset. The security core performs them, so none happens while it
does not run (R433). -/
def State.escalate (s : State) (case : Nat) : State :=
  if s.procState 0 ≠ 2 then s
  else
    let s := s.logEvent 0 0x0004 0 [case]
    let s := (s.fe.descs.filter (fun d => d.func ≠ internalRing)).foldl (fun s d => s.endDesc d 0x0B11 none) s
    (s.writeDump 1 case).warmBegin case false

/-- Step 5 of R307 has not completed 50 ms after the report of a fault. -/
def State.lateReset (s : State) : Bool :=
  partIds.any (fun p => match (s.part p).quar with
    | some q => decide (s.fromView (some p) q.time + 50000000 ≤ s.chorusNs)
    | none => false)

/-- DEVICE_ESCALATION (R309, R310): the cases whose condition lies in the machine need it. -/
def execDeviceEscalation (esc : Fin 6) (s : State) : Out :=
  .next (
    let case := esc.val + 1
    let holds : Bool := match case with
      | 1 => !s.sys.deadBr.isEmpty
      | 2 => s.lateReset
      | 3 => s.procState schedProc == 4
      | _ => true
    if holds then s.escalate case else s)

/-- PLL_LOCK_LOSS (R309 case 5). -/
def execPllLockLoss (_die : Fin 3) (_mclk : Bool) (s : State) : Out := .next (s.escalate 5)

/-! ## Restarts (R432, R433) -/

/-- The commands that scheduler core firmware had accepted end with GS_1009, but for INVAL and PARTITION_DESTROY; FILLs in
progress stop (R433). -/
def State.endJournal (s : State) : State :=
  let js := s.fw.journal.filter (fun (j : Journal) => j.acc && !j.done && j.code != 0x20 && j.code != 0x22)
  let s := js.foldl (fun s (j : Journal) => s.cmdDone j.func (some j.slot) j.tag j.code (replyStatus 0x1009)) s
  (s.setHbm { s.hbm with runs := s.hbm.runs.filter (fun r => r.slot.isNone) })

/-- A processor's restart has failed (R433): it reports ABSENT, with what follows for each. -/
def State.procFail (s : State) (i : Nat) : State :=
  let s := s.capUpdate (fun s => s.setFld (R.FW_STAT i) 63 61 4)
  if i = 1 then s.fixedLimits else if i = schedProc then s.escalate 3 else s

/-- Times of a list that lie less than 1 s back. -/
def State.recent (s : State) (l : List Nat) : List Nat := l.filter (fun t => decide (s.ns < t + 1000000000))

/-- A watchdog expiry (R433): a PROC dump, and the processor restarts; the third within 1 s is a failed restart. The
security core restarts the others. -/
def State.expire (s : State) (i : Nat) : State :=
  if i ≠ 0 ∧ s.procState 0 ≠ 2 then s
  else
    let l := s.recent (Sparse.get (fun _ => []) s.fw.expiries i) ++ [s.ns]
    let s := s.writeDump 2 i
    let fw : FwState := { s.fw with
      expiries := Sparse.set (fun _ => []) s.fw.expiries i l
      restart := Sparse.set (fun _ => 0) s.fw.restart i s.ns }
    let s := (((s.setFw fw) : State).satInc (R.FW_STAT i) 47 32).setFld (R.FW_STAT i) 31 16 0x1009
    let s := s.capUpdate (fun s => s.setFld (R.FW_STAT i) 63 61 3)
    if 3 ≤ l.length then s.procFail i else s

/-- A command is a write of FW_KICK_i by its own processor (R454). -/
def isKick (i : ProcId) (c : Instr) : Bool :=
  match c with
  | .fwKick (.fw j) x => j == i && x == i
  | _ => false

/-- WATCHDOG_EXPIRY (R433, R454): no kick within the timeout of a running watchdog; a kick of the same instant wins. -/
def execWatchdogExpiry (i : ProcId) (s : State) : Out :=
  .next (
    let kicked := s.pending.any (isKick i)
    let i := i.val
    let tmo := max 1 (s.fld (R.FW_WDT i) 15 0) * 1000000
    if kicked = true ∨ s.procState i ≠ 2 ∨ s.bitOf (R.FW_WDT i) 31 = false ∨ s.ns < Sparse.get (fun _ => 0) s.fw.kicked i + tmo then s
    else s.expire i)

/-- A component of a processor faults with a status (R432): it is stopped, logged and restarted. A second fault of one
component within 1 s, or a fault of the supervisor (`none`), is a watchdog expiry. -/
def State.regionFault (s : State) (i : Nat) (comp : Option Byte) (st : Status) : State :=
  if s.procState i ≠ 2 then s
  else
    let s := s.logEvent i 0x0002 0 [st.toNat]
    match comp with
    | none => s.expire i
    | some c =>
      let key := 256 * i + c.toNat
      let l := s.recent (Sparse.get (fun _ => []) s.fw.regions key)
      let s : State := (s.setFw { s.fw with regions := Sparse.set (fun _ => []) s.fw.regions key (l ++ [s.ns]) })
      if l = [] then
        let s := (s.satInc (R.FW_STAT i) 47 32).setFld (R.FW_STAT i) 31 16 st.toNat
        if i = schedProc then s.endJournal else s
      else s.expire i

/-- PROCESSOR_RESTART_TIMEOUT (R433): not RUN within 20 ms. -/
def execProcessorRestartTimeout (i : ProcId) (s : State) : Out :=
  .next (
    if s.procState i.val = 3 ∧ Sparse.get (fun _ => 0) s.fw.restart i.val + 20000000 ≤ s.ns then s.procFail i.val else s)

/-- A processor's watchdog restarts (R454). -/
def State.kick (s : State) (i : Nat) : State :=
  (s.setFw { s.fw with kicked := Sparse.set (fun _ => 0) s.fw.kicked i s.ns })

/-- PROCESSOR_REACHES_RUN (R433): the scheduler core ends its journal, the cause is logged, and every function has its
FW_RESTART notice. -/
def execProcessorReachesRun (i : ProcId) (s : State) : Out :=
  .next (
    let i := i.val
    if s.procState i ≠ 3 then s
    else
      let cause := s.fld (R.FW_STAT i) 31 16
      let s := (s.capUpdate (fun s => s.setFld (R.FW_STAT i) 63 61 2)).kick i
      let s := if i = schedProc then s.endJournal else s
      (s.logEvent i 0x0003 0 [i, cause]).noticeAll 0x0C 0 (leBytes 1 i ++ leBytes 1 0 ++ leBytes 2 cause))

end Sys2Proof.Machine
end

