-- ==== Sys2Proof/Machine/Shed.lean ====
section
/-!
DEFINITION. Firmware shed (R486 to R494), and regeneration of cores and scratchpad rows (R495 to R500).
-/

namespace Sys2Proof.Machine

/-! ## Stages (R486, R504) -/

/-- FW_SHED_STAT.STAGE. -/
def State.stage (s : State) : Nat := s.fld R.FW_SHED_STAT 63 60

/-- Set it. -/
def State.setStage (s : State) (x : Nat) : State := s.setFld R.FW_SHED_STAT 63 60 x

/-- What the manual calls the inactive slot. -/
def idleSlot (r : SlotRec) : Nat := 1 - r.act

/-- The slot record marks a slot BAD with a reason (R479, R504). -/
def State.badSlot (s : State) (r : SlotRec) (i : Nat) (why : Status) : State :=
  (s.writeSlots (markBad r i why)).setFld R.FW_SHED_STAT 47 32 why.toNat

/-- Run a shed command of the PF in a stage that lists it; in any other it completes with GS_1201 (R486). A part whose slot
record is unreadable runs no firmware, so there is a record whenever a command runs. -/
def State.shedIn (s : State) (ok : Nat → Bool) (body : State → SlotRec → CmdOut) : CmdOut :=
  match s.sys.boot.slots with
  | none => .done s (replyStatus 0x1201)
  | some r => if ok s.stage then body s r else .done s (replyStatus 0x1201)

/-- SHED_BEGIN (R487, R488): the inactive slot is EMPTY in the record, and the download starts. -/
def execShedBegin (cmd : Cmd) (s : State) : Out :=
  s.cmdRun 0x50 cmd (fun s _ slot tag a =>
    let host := leAt a 0 8
    let len := leAt a 8 4
    if setIn a 0xC 4 then .done s (replyStatus 0x1002)
    else if host % 4096 ≠ 0 ∨ len % 4096 ≠ 0 ∨ len < 4096 ∨ 0x200_0000 < len then .done s (replyStatus 0x1202)
    else s.shedIn (· == 0) (fun s r =>
      let s := (s.writeSlots (putSlot r (idleSlot r) ⟨0, 0, 0, 0, 0, 0, 0, 0⟩)).setStage 1
      .accept (s.setSys { s.sys with shed := ⟨host, len, slot, tag, s.sys.shed.tmo, 0, false⟩ })))

/-- SHED_DOWNLOAD_COMPLETE (R488): the slot is STAGED, or the command ends. -/
def execShedDownloadComplete (res : HostRead) (flashOk : Bool) (s : State) : Out :=
  .next (match s.sys.boot.slots with
    | none => s
    | some r =>
      let x := s.sys.shed
      let fin (s : State) (st : Status) : State := s.cmdDone 0 x.slot x.tag 0x50 (replyStatus st)
      if s.stage ≠ 1 then s
      else
        match res with
        | .error => fin (s.setStage 0) 0x100C
        | .bytes img =>
          let lo := idleSlot r * 0x200_0000
          let s := s.modBoot (fun b =>
            let b := overFlash b lo (lo + 0x200_0000)
            if flashOk ∧ img.length = x.len then { b with bytes := Sparse.putRun (fun _ => none) b.bytes lo (img.map some) } else b)
          if flashOk = false then fin (s.setStage 0) 0x1206
          else fin ((s.writeSlots (putSlot r (idleSlot r) { slotInfo r (idleSlot r) with state := 1 })).setStage 2) 0)

/-- The checks of R489 in their order. -/
def State.verifyStatus (s : State) (chk : ImageCheck) : Status :=
  let fmtOk : Bool := match s.sys.boot.settings with
    | some x => decide (chk.setMin ≤ x.fmt) && decide (x.fmt ≤ chk.setMax)
    | none => false
  if chk.sig = false then 0x1203 else if chk.svn < s.sys.boot.svn then 0x1204 else if fmtOk = false then 0x1205 else 0

/-- SHED_VERIFY (R489): the slot is VERIFIED and the checked copy stands in HBM, or the slot is BAD. -/
def execShedVerify (cmd : Cmd) (chk : ImageCheck) (s : State) : Out :=
  s.cmdRun 0x51 cmd (fun s _ _ _ _ => s.shedIn (· == 2) (fun s r =>
    let st := s.verifyStatus chk
    if st ≠ 0 then .done ((s.badSlot r (idleSlot r) st).setStage 0) (replyStatus st)
    else
      let s := s.writeSlots (putSlot r (idleSlot r) ⟨2, 0, chk.version, chk.setMin, chk.setMax, chk.svn, chk.digest, 0⟩)
      let s : State := (s.setSys { s.sys with shed := { s.sys.shed with copy := true } })
      .done (s.setStage 4) (replyStatus 0)))

/-- The order in which R490 swaps the processors. -/
def swapOrder : List Nat := (List.range 32).map (· + 3) ++ [1, 2, 0]

/-- How an activation ends (R491): a processor that does not reach RUN on the new image, or settings that the scheduler
core's new image cannot read. -/
def State.swapStatus (s : State) (img : SlotInfo) (swap : SwapOutcome) : Status :=
  let bad := decide (s.settingsReason img s.sys.boot.settings [] ≠ 0)
  match swap.fails with
  | some i => if i.val = 0 ∧ bad then 0x1205 else 0x1207
  | none => if bad then 0x1205 else 0

/-- SHED_ACTIVATE (R490, R491): every processor runs the new image and the slot is in TRIAL, or all return to the old one. -/
def execShedActivate (cmd : Cmd) (swap : SwapOutcome) (s : State) : Out :=
  s.cmdRun 0x52 cmd (fun s _ _ _ a =>
    let tmo := leAt a 0 4
    if setIn a 4 4 then .done s (replyStatus 0x1002)
    else if tmo < 10 ∨ 86400 < tmo then .done s (replyStatus 0x1202)
    else s.shedIn (· == 4) (fun s r =>
      let i := idleSlot r
      let st := s.swapStatus (slotInfo r i) swap
      if st ≠ 0 then
        let s := (s.badSlot r i st).setStage 0
        .done (swap.dead.foldl (fun s p => s.procFail p.val) s) (replyStatus st)
      else
        let r := { putSlot r i { slotInfo r i with state := 3, tries := 0 } with act := i, prev := r.act }
        let s := (s.writeSlots r).setFld R.TOP_BOOT_STAT 59 59 i
        let s : State := { s with
          fw := { s.fw with certs := s.fw.certs + 1 }
          sys := { s.sys with shed := { s.sys.shed with tmo := tmo, since := s.ns } } }
        .done ((s.setStage 6).shedNotice 0x01 0) (replyStatus 0)))

/-- SHED_CONFIRM (R492). -/
def execShedConfirm (cmd : Cmd) (s : State) : Out :=
  s.cmdRun 0x53 cmd (fun s _ _ _ _ => s.shedIn (· == 6) (fun s r =>
    let x := slotInfo r r.act
    let s := s.writeSlots (putSlot r r.act { x with state := 4 })
    let s := s.modBoot (fun b => { b with svn := max b.svn x.svn })
    .done ((s.saveSettings.setStage 0).shedNotice 0x02 0) (replyStatus 0)))

/-- The device reverts to the previous image (R492): the record first, then the processors. -/
def State.revert (s : State) (r : SlotRec) (why : Status) : State :=
  let s := s.badSlot { r with act := r.prev } r.act why
  ((s.setFld R.TOP_BOOT_STAT 59 59 r.prev).setStage 0).shedNotice 0x03 0

/-- SHED_ABORT (R486, R492). -/
def execShedAbort (cmd : Cmd) (s : State) : Out :=
  s.cmdRun 0x54 cmd (fun s _ _ _ _ => s.shedIn (fun x => x == 2 || x == 4 || x == 6) (fun s r =>
    if s.stage = 6 then .done (s.revert r 0x1209) (replyStatus 0)
    else .done ((s.writeSlots (putSlot r (idleSlot r) { slotInfo r (idleSlot r) with state := 0 })).setStage 0) (replyStatus 0)))

/-- SHED_CONFIRM_TIMEOUT (R492). -/
def execShedConfirmTimeout (s : State) : Out :=
  .next (match s.sys.boot.slots with
    | none => s
    | some r =>
      if s.stage = 6 ∧ s.sys.shed.since + s.sys.shed.tmo * 1000000000 ≤ s.ns then s.revert r 0x1208 else s)

/-- CONF_LEFT as it reads (R504). -/
def State.confLeft (s : State) : Nat :=
  if s.stage = 6 then s.sys.shed.tmo - (s.ns - s.sys.shed.since) / 1000000000 else 0

/-! ## Regeneration (R495 to R499) -/

/-- The position that its cluster's warden, in RUN, handles now: the first that became RETIRING. -/
def State.retiring (s : State) (p : Nat) : Bool :=
  match s.sys.retire.find? (fun e => e.pos / 26 == p / 26) with
  | some e => e.pos == p && s.procState (3 + p / 26) == 2
  | none => false

/-- Step 1 of R496: the inventory record holds the retirement pending, and no new kernel starts on the position. -/
def State.beginRetire (s : State) (p : Nat) : State :=
  if s.sys.retire.any (fun e => e.pos == p && e.begun) then s
  else
    (s.setSys { s.sys with retire := modifyFirst (fun (e : Retire) => e.pos == p) (fun e => { e with begun := true }) s.sys.retire }
      : State).writeInv

/-- SPARE_POS as a position (R24). -/
def State.spare (s : State) (c : Nat) : Option Nat :=
  let j := s.fld (R.TOP_CLUSTER c) 20 16
  if j = 0x1F then none else some (26 * c + j)

/-- A quiet point of core `k` (R496 step 3). -/
def State.quietCore (s : State) (k : Nat) : Bool :=
  let x := s.core k
  (List.range 4).all (fun c =>
    let st := s.seqState k c
    (s.partOf k c).isNone || st == 0 ||
      ((st == 3 || st == 4) && !(x.mq.any (fun e => e.ctx.val == c)) && !(x.vq.any (fun e => e.ctx.val == c)) &&
        !(x.dq.any (fun e => e.ctx.val == c))))

/-- The scratchpad as the copy of R498 leaves it at the spare: written bits and poison go across, uncorrectable words are
written poisoned; rows repaired at the spare stay its own. -/
def copyPad (a b : Pad) : Pad :=
  let bad := (a.errs.filter (fun e => e.2 == .ue || e.2 == .mismatch)).map (fun e => e.1)
  { b with bytes := a.bytes, written := a.written, errs := [], wb := [], fixed := [],
           poison := bad.foldl (fun m w => Sparse.set (fun _ => false) m w true) a.poison }

/-- A position leaves the list of RETIRING ones. -/
def State.endRetire (s : State) (p : Nat) : State :=
  let s := s.setFld R.TOP_REGEN_STAT 15 0 (s.fld R.TOP_REGEN_STAT 15 0 - 1)
  (s.setSys { s.sys with retire := s.sys.retire.filter (fun e => e.pos != p) })

/-- A position is placed in OFF and loses what it held; the rows it has used stay used. -/
def State.turnOff (s : State) (p : Nat) : State :=
  (s.setDstate p 4).modPos p (fun x => { PosState.reset with pad := { Pad.reset with ueCnt := x.pad.ueCnt, spares := x.pad.spares } })

/-- TOP_POS_p takes a state and a slot. -/
def State.setPos (s : State) (p st slot : Nat) : State := (s.setFld (R.TOP_POS p) 31 29 st).setFld (R.TOP_POS p) 9 0 slot

/-- Steps 4 to 7 of R496: the slot moves from position `p` to position `q`. -/
def State.moveSlot (s : State) (p q k : Nat) : State :=
  let pad := (s.pos p).pad
  let s := (s.setDstate q 0).modPos q (fun x => { x with pad := copyPad pad x.pad, tlb := [] })
  let s := s.modCore k (fun x =>
    { x with rbuf := [], ctxs := (List.range 4).foldl (fun m c => Sparse.modify (fun _ => CtxState.reset) m c
      (fun t => { t with rows := [] })) x.ctxs })
  let s := s.capUpdate (fun s =>
    let s := s.setReg (R.TOP_SLOT_MAP k) (BitVec.ofNat 64 (2 ^ 30 + q))
    ((s.setPos q 1 k).setPos p 4 0x3FF).syncSpare (p / 26))
  (((s.turnOff p).satInc R.TOP_REGEN_STAT 63 48).endRetire p).writeInv

/-- RETIRE_POSITION (R496): the retirement is recorded, the spare is brought to ACTIVE and tested; one that fails is FAILED, else
at a quiet point the slot moves to it. -/
def execRetirePosition (p : PhysId) (testOk : Bool) (s : State) : Out :=
  .next (
    let p := p.val
    match s.spare (p / 26), s.slotOf p with
    | some q, some k =>
      if s.retiring p = false then s
      else
        let s := s.beginRetire p
        if testOk = false then (s.capUpdate (fun s => (s.setPos q 5 0x3FF).syncSpare (p / 26))).writeInv
        else if s.quietCore k then s.moveSlot p q k
        else s.setDstate q 0
    | _, _ => s)

/-- The front end quarantines a partition because it still runs on a slot that is lost (R497). -/
def State.lostFault (s : State) (p k : Nat) : State :=
  if (s.part p).quar.isSome then s
  else
    let cause : Cause :=
      { slot := none, unit := 7, status := 0x120B, core := s.coreNumber p k, ctx := s.fld (R.MMU_PCFG p) 61 60, coin := false, pc := 0, code := 0,
        uop := 0xFF, instr := 0, addr := 0, time := s.viewNs (some p), desc := s.descOf k (s.fld (R.MMU_PCFG p) 61 60) }
    s.modPart p (fun x => { x with quar := some cause })

/-- Slot `k` of position `p` is unbound (R497): it reports ABSENT, and what it held is lost. -/
def State.unbind (s : State) (p k : Nat) : State :=
  let c := p / 26
  let s := s.capUpdate (fun s =>
    let s := s.resetReg (R.TOP_SLOT_MAP k)
    (s.setPos p 4 0x3FF).syncSpare c)
  let s := (s.setCore k CoreState.reset).turnOff p
  let s := ((s.satInc R.TOP_REGEN_STAT 47 32).endRetire p).writeInv
  let ps := s.partsLive.filter (fun q => s.bitOf (R.MMU_PCFG q) c)
  s.qosFall 0 ps (s.fld (R.TOP_CLUSTER c) 12 8) s.variant.slots

/-- SLOT_UNBIND (R497): with no spare, the slot is unbound once every resident context is IDLE; after a wait of WAIT_MS the
partitions that are not are quarantined, which makes them so. -/
def execSlotUnbind (p : PhysId) (s : State) : Out :=
  .next (
    let p := p.val
    match s.slotOf p with
    | none => s
    | some k =>
      if s.retiring p = false ∨ (s.spare (p / 26)).isSome then s
      else
        let s := s.beginRetire p
        let busy := (List.range 4).filter (fun c => s.seqState k c != 0)
        let wait := max 1 (s.fld R.TOP_REGEN_CFG 23 16) * 1000000
        if busy = [] then s.unbind p k
        else match (s.sys.retire.find? (fun e => e.pos == p)).bind (fun e => e.wait) with
          | none =>
            s.setSys { s.sys with
              retire := modifyFirst (fun (e : Retire) => e.pos == p) (fun e => { e with wait := some s.ns }) s.sys.retire }
          | some t =>
            if t + wait ≤ s.ns then (busy.filterMap (fun c => s.partOf k c)).foldl (fun s q => s.lostFault q k) s else s)

/-! ## Spare rows (R500) -/

/-- The words of a bank row. -/
def rowWords (bank row : Nat) : List Nat := (List.range 8).map (· + 256 * row + 8 * bank)

/-- SCRATCHPAD_ROW_REPAIR (R500): the first candidate moves to a spare row of its deck, its uncorrectable words poisoned;
with none left it counts as one uncorrectable event (R495). -/
def execScratchpadRowRepair (p : PhysId) (s : State) : Out :=
  .next (
    let p := p.val
    let pad := (s.pos p).pad
    match pad.cands with
    | [] => s
    | (bank, row) :: rest =>
      let key := 2 * bank + (if row < 512 then 0 else 1)
      let used := Sparse.get (fun _ => 0) pad.spares key
      if s.procState (3 + p / 26) ≠ 2 then s
      else if 4 ≤ used then (s.modPos p (fun x => { x with pad := { x.pad with cands := rest } })).ueEvent p
      else
        let ws := rowWords bank row
        let bad := ws.filter (fun w => let e := Sparse.get (fun _ => Err.ok) pad.errs w; e == .ue || e == .mismatch)
        let pad : Pad := { pad with
          cands := rest
          spares := Sparse.set (fun _ => 0) pad.spares key (used + 1)
          poison := bad.foldl (fun m w => Sparse.set (fun _ => false) m w true) pad.poison
          errs := Sparse.drop pad.errs (fun w => ws.contains w)
          wb := pad.wb.filter (fun w => !ws.contains w)
          fixed := pad.fixed.filter (fun w => !ws.contains w) }
        let s := s.modPos p (fun x => { x with pad := pad })
        let s := s.capUpdate (fun s => s.setFld (R.TOP_POS p) 24 16 (s.fld (R.TOP_POS p) 24 16 - 1))
        s.satInc R.TOP_REGEN_STAT 31 16)

end Sys2Proof.Machine
end

