-- ==== Sys2Proof/Machine/Package.lean ====
section
/-!
DEFINITION. Clocks, sync input, sideband flash and power commands, TAP and output pins (R512 to R525), and the capture of
discarded register writes (R535).
-/

namespace Sys2Proof.Machine

/-! ## Output pins (R516, R520, R523) -/

/-- SMB_ALERT_N is low (R523). -/
def State.smbAlert (s : State) : Bool :=
  decide (s.fld R.TOP_INPUT_STAT 31 23 ≠ 0) || s.tripped || s.bitOf R.PWR_STAT 0

/-- THERMTRIP_N is low (R520). -/
def State.thermtrip (s : State) : Bool := s.tripped

/-- CHORUS_MON (R516): high for 100 µs from each whole multiple of 10^9 ns. -/
def State.chorusMon (s : State) : Bool := decide (1000000000 ≤ s.chorusNs) && decide (s.chorusNs % 1000000000 < 100000)

/-! ## Reference clocks (R517, R518) -/

/-- SYSCLK_LOST (R518): Chorus enters LOST, and nothing relocks. -/
def execSysclkLost (s : State) : Out :=
  .next (if s.bitOf R.TOP_INPUT_STAT 31 then s else (s.setBitOf R.TOP_INPUT_STAT 31).chrEnter 4 0)

/-- PECLK_LOST (R517, R519): the PCIe link is down, which is a PCIe reset. -/
def execPeclkLost (s : State) : Out := .next ((s.setBitOf R.TOP_INPUT_STAT 30).warmBegin 0 true)

/-- The links of a reference clock's bank (R506). -/
def bankLinks (b : Fin 2) : List Nat := (List.range 8).map (· + 8 * b.val)

/-- LNKCLK_LOST (R517): the bank's links go down under R325. -/
def execLnkclkLost (bank : Fin 2) (s : State) : Out :=
  .next (
    let s := s.setBitOf R.TOP_INPUT_STAT (29 - bank.val)
    (bankLinks bank).foldl (fun s l => if s.linkState l = 3 then s.linkDown l else s) s)

/-- LNK_REFCLK_RETURN (R517): the links that went down start to train again. -/
def execLnkRefclkReturn (bank : Fin 2) (s : State) : Out :=
  .next ((bankLinks bank).foldl (fun s l => if s.linkState l = 4 then s.detect l false else s) s)

/-! ## Chorus sync input (R521, R261, R264) -/

/-- Nanoseconds in a second, in 1/256 ns. -/
def secTicks : Nat := 1000000000 * 256

/-- How far a time lies from the nearest whole multiple of 10^9 ns, in 1/256 ns; a positive offset is ahead. -/
def syncOffset (t : Nat) : Int :=
  let r := t % secTicks
  if 2 * r < secTicks then r else (r : Int) - secTicks

/-- A sync edge is rejected; the fourth in a row in LOCKED returns the root to ACQUIRE. -/
def State.rejectSync (s : State) : State :=
  let s := (s.satInc R.TOP_INPUT_STAT 7 0).setBitOf R.TOP_INPUT_STAT 23
  let n := s.chr.syncRej + 1
  let s := s.modChr (fun c => { c with syncRej := n })
  if s.chrState = 2 ∧ 4 ≤ n then (s.modChr (fun c => { c with syncRej := 0, syncGood := 0 })).chrEnter 1 0 else s

/-- A valid sync edge disciplines the root (R261, R264): in ACQUIRE a step, or slew and, aligned for 64 edges, LOCKED. -/
def State.acceptSync (s : State) (x : Int) : State :=
  let good := if x.natAbs ≤ 256 then s.chr.syncGood + 1 else 0
  let st := s.chrState
  let s := (s.modChr (fun c => { c with lastSync := some s.ns, syncRej := 0, syncGood := good })).setReg R.CHR_OFFSET
    (BitVec.ofNat 64 (wrap 32 x))
  if st = 1 then
    if s.fld R.CHR_CFG 15 0 * 256 < x.natAbs then (s.chorusStep (-x)).modChr (fun c => { c with slew := 0, syncGood := 0 })
    else
      let s := s.modChr (fun c => { c with slew := -x })
      if 64 ≤ good then s.chrEnter 2 0 else s
  else if st = 2 then
    if 20 * 256 < x.natAbs then (s.modChr (fun c => { c with syncGood := 0 })).chrEnter 1 0
    else s.modChr (fun c => { c with slew := -x })
  else (s.modChr (fun c => { c with syncGood := 0 })).chrEnter 1 0

/-- SYNC_EDGE (R521): `inst` is the timestamp at the ball. -/
def execSyncEdge (inst : Chorus) (s : State) : Out :=
  .next (
    if s.fld R.CHR_CFG 31 30 ≠ 2 then s
    else
      let x := syncOffset (wrap 72 ((inst.toNat : Int) - (s.fld R.TOP_SYNC_CFG 23 0 : Nat)))
      let valid : Bool :=
        if s.chrState = 2 then decide (x.natAbs ≤ 1000 * 256)
        else match s.chr.lastSync with
          | none => true
          | some t => decide (t + 500000000 ≤ s.ns)
      if valid then s.acceptSync x else s.rejectSync)

/-- SYNC_TIMEOUT (R521): no valid edge for 3 s. -/
def execSyncTimeout (s : State) : Out :=
  .next (
    let due : Bool := match s.chr.lastSync with | some t => decide (t + 3000000000 ≤ s.ns) | none => true
    if s.fld R.CHR_CFG 31 30 = 2 ∧ s.chrState = 2 ∧ due = true then s.chrEnter 3 0 else s)

/-! ## Sideband (R522 to R524) -/

/-- Change the sideband's state. -/
def State.modSb (s : State) (f : SbState → SbState) : State := (s.setSys { s.sys with sb := f s.sys.sb })

/-- A sideband command runs unless another does, which discards it (R522); its result is kept. -/
def State.sbRun (s : State) (code : Nat) (body : State → State × Status × List Byte) : State :=
  if s.sys.sb.waits then s
  else
    let (s, st, d) := body s
    s.modSb (fun b => { b with status := st, code := code, data := d })

/-- Flash commands run in PHASE RECOVERY only; `late` says that the flash device exceeds its time limit (R523). -/
def State.flashRun (s : State) (code : Nat) (ok late : Bool) (body : State → State × List Byte) : State :=
  s.sbRun code (fun s =>
    if s.fld R.TOP_BOOT_STAT 63 60 ≠ 8 then (s, 0x1304, [])
    else if ok = false then (s, 0x1303, [])
    else let x := body s; if late then (x.1, 0x1206, []) else (x.1, 0, x.2))

/-- The end of the flash that the sideband reaches (R523). -/
def flashEnd : Nat := 0x408_0000

/-- FLASH_READ (R522, R523): bytes that the sideband has not written are open. -/
def execFlashRead (place : FlashAt) (len : BitVec 8) (s : State) : Out :=
  .next (
    let a := place.addr.toNat
    let n := len.toNat
    s.flashRun 0x20 (decide (1 ≤ n) && decide (n ≤ 128) && decide (a + n ≤ flashEnd)) place.late (fun s =>
      (s.takeFree, (List.range n).map (fun i => match Sparse.get (fun _ => none) s.sys.boot.bytes (a + i) with
        | some b => b
        | none => Config.flashByte s.free (a + i)))))

/-- The flash changed under the records, which the next boot reads anew. -/
def State.flashPut (s : State) (a : Nat) (bs : List (Option Byte)) : State :=
  s.modBoot (fun b => { b with
    bytes := Sparse.putRun (fun _ => none) b.bytes a bs
    known := b.known && decide (a + bs.length ≤ 0x400_0000) })

/-- FLASH_ERASE (R522, R523): one 64 KiB sector, whose bytes are open where the device fails. -/
def execFlashErase (place : FlashAt) (s : State) : Out :=
  .next (
    let a := place.addr.toNat
    s.flashRun 0x21 (decide (a % 0x1_0000 = 0) && decide (a < flashEnd)) place.late (fun s =>
      (s.flashPut a (List.replicate 0x1_0000 (if place.late then none else some 0xFF#8)), [])))

/-- FLASH_PROGRAM (R522, R523): bytes of one page; a byte that is not known to be erased, and every byte where the
device fails, is open afterwards. -/
def execFlashProgram (place : FlashAt) (data : List Byte) (s : State) : Out :=
  .next (
    let a := place.addr.toNat
    let n := data.length
    s.flashRun 0x22 (decide (1 ≤ n) && decide (n ≤ 128) && decide (a % 256 + n ≤ 256) && decide (a + n ≤ flashEnd)) place.late (fun s =>
      let old := Sparse.getList (fun _ => none) s.sys.boot.bytes a n
      (s.flashPut a ((data.zip old).map (fun x => if x.2 = some 0xFF#8 ∧ place.late = false then some x.1 else none)), [])))

/-- PWR_COMMIT (R523): the power core issues COMMIT_AT for the PWR scope 1 ms ahead, LATE_OK set; the result waits for its
end. Without the power core or the scheduler core its status is open. -/
def execPwrCommit (s : State) : Out :=
  .next (
    if s.sys.sb.waits then s
    else
      let t := s.chorus.toNat + 1000000 * 256
      let args := leBytes 8 (t / 256) ++ leBytes 1 t ++ leBytes 1 1 ++ leBytes 2 0 ++ leBytes 4 0b100000
      let put (s : State) (st : Status) (d : List Byte) (w : Bool) : State :=
        s.modSb (fun b => { b with status := st, code := 0x14, data := d, waits := w })
      if s.procState 1 ≠ 2 ∨ s.fwReady = false then put s.takeFree (Config.sbStatus s.free) [] false
      else
        match s.commitChecks args with
        | some (st, id, hi, lo, addr) => put s st (resultBlock st id hi lo addr 0 false) false
        | none => (put s 0x1305 [] true).modChr (fun c => { c with commit := some (commitOf args 0 none 0) }))

/-- SIDEBAND_RESULT_READ (R522): STATUS, CODE and data of the last command; GS_1305 while it runs. -/
def execSidebandResultRead (s : State) : Out :=
  .next (s.modSb (fun b => { b with
    out := if b.waits then leBytes 2 0x1305 ++ leBytes 1 b.code else leBytes 2 b.status.toNat ++ leBytes 1 b.code ++ b.data }))

/-- SMBUS_CLOCK_TIMEOUT (R517): the partial transaction is discarded; it had no effect yet. -/
def execSmbusClockTimeout (s : State) : Out := .next s

/-! ## TAP (R525) -/

/-- JTAG_INSTRUCTION (R525): `none` is every other code, which acts as BYPASS; EXTEST and the 1149.6 instructions need
RESET_N asserted. -/
def execJtagInstruction (i : Option Tap) (s : State) : Out :=
  let t : Tap := match i with
    | some .idcode => .idcode
    | some .sample => .sample
    | some .extest => if s.sys.tapReset then .extest else .bypass
    | some .pulse => if s.sys.tapReset then .pulse else .bypass
    | some .train => if s.sys.tapReset then .train else .bypass
    | _ => .bypass
  .next (s.setSys { s.sys with tap := t })

/-- What IDCODE reads. -/
def idcode : BitVec 32 := 0x14D3358B#32

/-! ## TOP_REG_ERR (R535) -/

/-- REG_ERR_CAPTURE (R535): the scheduler core reads the capture, which clears it, and writes it to the log ring. -/
def execRegErrCapture (s : State) : Out :=
  .next (
    let v := s.reg R.TOP_REG_ERR
    if s.fwReady = false ∨ v = 0 then s
    else (s.setReg R.TOP_REG_ERR 0).logEvent schedProc 0x0007 1 [bits v 47 0, bits v 63 48])

end Sys2Proof.Machine
end

