-- ==== Sys2Proof/Machine/RegAccess.lean ====
section
/-!
DEFINITION. Register accesses (R10, R13 to R15, R38, R529 to R535, R543): who may reach a register, what a read returns and
clears, and what a write changes. Every access to a register, by whatever path it comes, goes through `regLoad` or
`regStore`.
-/

namespace Sys2Proof.Machine

/-! ## Width (R543) -/

/-- Whether a 64-bit register starts at an address. -/
def wideAt (v : Variant) (a : Nat) : Bool := match regInfo v a with | some i => i.wide | none => false

/-- The part of a register that an access covers: where the register starts, where the part lies, and how far up in the
register it begins. -/
structure RegPart where
  start : Nat
  at_   : Nat
  shift : Nat
  width : Nat
  deriving DecidableEq, Repr

/-- The part that the four bytes at an address are. -/
def part4 (v : Variant) (a : Nat) : RegPart :=
  if a % 8 = 4 ∧ wideAt v (a - 4) = true then ⟨a - 4, a, 32, 32⟩ else ⟨a, a, 0, 32⟩

/-- The parts of a 4 or 8 byte access, the lower first (R543). -/
def regParts (v : Variant) (a : Nat) (wide : Bool) : List RegPart :=
  if wide then (if wideAt v a then [⟨a, a, 0, 64⟩] else [part4 v a, part4 v (a + 4)]) else [part4 v a]

/-! ## Who may reach a register (R38 check 2) -/

/-- The partition an agent acts for (R403). -/
def State.agentPart (s : State) (a : Agent) : Option Nat :=
  match a with
  | .core k => s.partOf k.val (s.core k.val).run.val
  | .host f => s.partOfFunc f.val
  | _ => none

/-- The security core or the scheduler core. -/
def secOrSched (a : Agent) : Bool := decide (a = .fw 0) || decide (a = .fw 2)

/-- The security core or the power core. -/
def secOrPower (a : Agent) : Bool := decide (a = .fw 0) || decide (a = .fw 1)

/-- A firmware processor. -/
def isFw (a : Agent) : Bool := match a with | .fw _ => true | _ => false

/-- The sequencer of core `k`. -/
def ownCore (a : Agent) (k : Nat) : Bool := match a with | .core j => j.val == k | _ => false

/-- The sequencer of core `k`, and a register of its running context in an array of four from offset `b`. -/
def State.ownCtx (s : State) (a : Agent) (k o b stride : Nat) : Bool :=
  ownCore a k && decide (idx o b stride 4 = some (s.core k).run.val)

/-- Whether an agent may read the register at offset `o` of a block (chapters 1 to 20, as each block's text says). -/
def State.mayRead (s : State) (a : Agent) (b : Block) (o : Nat) : Bool :=
  match b with
  | .top => if o = 0x10 ∨ o = 0x18 then secOrSched a else true
  | .sec => decide (a = .fw 0)
  | .mmu => secOrSched a || decide (a = .host 0) || s.agentPart a == some (o / 0x200)
  | .feChip => secOrSched a || (decide (o < 0x80) && (decide (a = .host 0) || s.agentPart a == some (o % 0x40 / 4)))
  | .fe f => decide (a = .fw 2) || (match a with | .host g => g.val == f | _ => false)
  | .mbx f => decide (a = .fw 2) || (match a with | .host g => g.val == f | _ => false)
  | .seq k => secOrSched a || ownCore a k
  | .flg k =>
    secOrSched a || (ownCore a k && decide (o = 0x10)) || s.ownCtx a k o 0x80 8 || s.ownCtx a k o 0xC0 4 ||
      (ownCore a k && (match idx o 0x100 8 64 with | some g => s.groupOk k (s.core k).run.val g | none => false))
  | _ => true

/-- Whether an agent may write `w` to the register at offset `o` of a block. -/
def State.mayWrite (s : State) (a : Agent) (b : Block) (o : Nat) (w : Word64) : Bool :=
  match b with
  | .top =>
    if o = 0xA30 then secOrPower a || decide (a = .sideband)
    else if o = 0xA38 then secOrSched a || secOrPower a || decide (a = .sideband)
    else secOrSched a
  | .lnk => secOrSched a || (decide (a = .fw 1) && decide (o < 0x800) && decide (o % 0x80 = 0) &&
      (decide (bits w 31 29 = 4) || decide (bits w 31 29 = 5)))
  | .lf =>
    let cfg := R.LF_CH_CFG (o / 0x40)
    secOrSched a || (decide (o < 0x400) && (decide (o % 0x40 = 0x10) || decide (o % 0x40 = 0x14)) && s.bitOf cfg 24 &&
      s.agentPart a == some (s.fld cfg 23 20))
  | .pwr => secOrPower a || (decide (a = .sideband) && (decide (o = 0x40) || (decide (0x500 ≤ o) && decide (o < 0x528))))
  | .sec => decide (a = .fw 0)
  | .fw =>
    (decide (a = .fw 0) && decide (0x404 ≤ o) && decide (o < 0x600)) ||
      (match a with | .fw i => decide (o = 0x600 + 4 * i.val) | _ => false)
  | .fe f => decide (a = .fw 2) || (match a with | .host g => g.val == f | _ => false)
  | .mbx f => decide (a = .fw 2) || (match a with | .host g => g.val == f | _ => false)
  | .seq k => secOrSched a || s.ownCtx a k o 0 4
  | .ma k => if o < 8 then secOrPower a else secOrSched a || s.ownCtx a k o 0x30 4
  | .ve k => secOrSched a || s.ownCtx a k o 0x20 4
  | .sp k => secOrSched a || s.ownCtx a k o 0x200 4 || s.ownCtx a k o 0x300 4 || s.ownCtx a k o 0x310 4
  | .flg _ => (decide (o < 0x10) && secOrSched a) || (decide (0x40 ≤ o) && decide (o < 0x50) && isFw a)
  | _ => secOrSched a

/-- The register lies in the block of an ABSENT unit. -/
def State.unitAbsent (s : State) (b : Block) (o : Nat) : Bool :=
  match b with
  | .lnk => decide (o < 0x800) && s.linkCap (o / 0x80) == 0
  | .lf => !s.variant.lf
  | .hbm => decide (o < 0x800) && !s.variant.stack (o / 0x100)
  | .seq k | .ma k | .ve k | .sp k | .flg k => (s.phys k).isNone
  | _ => false

/-- Whether an agent may make an access (R38 check 2), a write carrying `w` where there is one. A register of an ABSENT
unit answers every agent: R10 gives its reads zero and its writes no fault (DEDUCED, log entry 77). -/
def State.mayReach (s : State) (a : Agent) (p : RegPart) (w : Option Word64) : Bool :=
  match blockOf p.start with
  | none => false
  | some (b, o) => s.unitAbsent b o || (match w with
    | none => s.mayRead a b o
    | some x => s.mayWrite a b o (x <<< p.shift))

/-- The four-byte parts that `n` bytes at an address touch, each with the bits of `x` that fall to it. -/
def touched (v : Variant) (addr n : Nat) (x : Option Word64) : List (RegPart × Option Word64) :=
  let a := addr / 4 * 4
  (List.range ((addr + n + 3) / 4 - a / 4)).map (fun i =>
    (part4 v (a + 4 * i), x.map (fun w => BitVec.ofNat 64 (natBits w.toNat (32 * i + 31) (32 * i)))))

/-- The checks of R38 on a register access of `n` bytes, in their order. -/
def State.regCheck (s : State) (a : Agent) (addr n : Nat) (w : Option Word64) : Status :=
  match s.regionOf addr n with
  | none => 0x0101
  | some .reg =>
    if !(touched s.variant addr n w).all (fun x => s.mayReach a x.1 x.2) then 0x0102
    else if (n = 4 ∨ n = 8) ∧ addr % n = 0 then 0
    else 0x0103
  | some _ => 0x0102

/-! ## Held windows (R530) -/

/-- The access waits with its slot's window (R530). -/
def State.regHeld (s : State) (addr : Nat) : Bool :=
  match blockOf addr with
  | some (.seq k, _) | some (.ma k, _) | some (.ve k, _) | some (.sp k, _) | some (.flg k, _) => (s.core k).winHeld
  | _ => false

/-! ## Reading -/

/-- What a register of the capability section reads as, or TOP_ beside it: zero until TOP_CAP_GEN is first even (R534 to
R539). -/
def State.topView (s : State) (addr o : Nat) : Word64 :=
  if 0x100 ≤ o ∧ o < 0x150 ∧ s.fld R.TOP_CAP_GEN 0 0 = 1 then 0 else s.reg addr

/-- What a mailbox register reads as (R437, R453): nothing for a function that is not enabled; the page beyond the registers
is memory. -/
def State.mbxView (s : State) (f addr o : Nat) : Word64 :=
  if s.enabled f = false then 0
  else if o = 0x8 then BitVec.ofNat 64 (((s.fn f).acks.headD 0).toNat)
  else if o = 0xC then setBits (setBits (s.reg addr) 31 31 s.fwReady.toNat) 5 3 (s.fn f).posts.length
  else if 0x400 ≤ o then BitVec.ofNat 64 (leNat (s.pageAt f o 4))
  else s.reg addr

/-- The value of the register that starts at an address, as an agent sees it. -/
def State.regView (s : State) (a : Agent) (addr : Nat) : Word64 :=
  match blockOf addr with
  | none => 0
  | some (b, o) =>
    if s.unitAbsent b o then 0
    else
      let v := match b with
        | .top => s.topView addr o
        | .chr =>
          if o = 0 then BitVec.ofNat 64 (s.viewNs (match a with | .core _ => s.agentPart a | _ => none))
          else if o = 8 then s.fracOf a
          else if o = 0x10 then s.chrStateView
          else s.reg addr
        | .pwr => (match idx o 0x2000 4 pwrDomains with
          | some d => if s.domAbsent d then setBits (s.reg addr) 31 28 4 else s.reg addr
          | none => s.reg addr)
        | .fw => if o = 0x800 then setBits (s.reg addr) 31 0 s.confLeft else s.reg addr
        | .mbx f => s.mbxView f addr o
        | .sp k => (match idx o 0x210 4 4 with
          | some c => s.spRxStat k c
          | none => (match idx o 0x320 4 4 with
            | some c => s.spPgStat k c
            | none => s.reg addr))
        | .seq k =>
          let st := s.seqState k (s.core k).run.val
          if o = 0x48 ∧ (st = 3 ∨ st = 4) then s.reg addr + BitVec.ofNat 64 (Config.gatedSoFar s.ns s.free) else s.reg addr
        | .ma k => if o = 8 then setBits (s.reg addr) 6 0 (s.credit k) else s.reg addr
        | .flg k =>
          if o = 0x10 then (if ownCore a k then s.reg (R.FLG_CTX k (s.core k).run.val) else 0) else s.reg addr
        | _ => s.reg addr
      match regInfo s.variant addr with
      | some i => v &&& ~~~ BitVec.ofNat 64 (i.accMask .wo)
      | none => v

/-- What a read of a whole register does to it: RC fields clear, and MBX_ACK loses its oldest entry (R13, R453). -/
def State.regClear (s : State) (addr : Nat) : State :=
  match blockOf addr with
  | none => s
  | some (b, o) =>
    if s.unitAbsent b o then s
    else match b with
      | .mbx f => if s.enabled f ∧ o = 0x8 then s.modFn f (fun x => { x with acks := x.acks.drop 1 }) else s
      | _ => (match regInfo s.variant addr with
        | some i =>
          let m := i.accMask .rc
          if m = 0 then s else s.setReg addr (s.reg addr &&& ~~~ BitVec.ofNat 64 m)
        | none => s)

/-- One part of a read: its bits, and the state after it. A read of CHR_NOW latches the fraction (R276). `view` is the PF's
view, which clears nothing (R533). -/
def State.partLoad (s : State) (a : Agent) (p : RegPart) (view : Bool) : State × Nat :=
  let x := natBits (s.regView a p.start).toNat (p.shift + p.width - 1) p.shift
  let s := if p.start = R.CHR_NOW then s.latchFrac a else s
  let whole := decide (p.width = 64) || !wideAt s.variant p.start
  (if view || !whole then s else s.regClear p.start, x)

/-- A register read that has passed R38 (R543). -/
def State.regLoad (s : State) (a : Agent) (addr : Nat) (wide view : Bool) : State × Word64 :=
  let r := (regParts s.variant addr wide).foldl (fun (x : State × Nat × Nat) p =>
    let y := x.1.partLoad a p view
    (y.1, x.2.1 + y.2 * 2 ^ x.2.2, x.2.2 + p.width)) (s, 0, 0)
  (r.1, BitVec.ofNat 64 r.2.1)

/-! ## Writing -/

/-- A write to an offset that names no register (R531); the mailbox page's slots take its bytes (R437). -/
def State.unnamedStore (s : State) (b : Block) (o addr : Nat) (x : Word64) : State :=
  match b with
  | .mbx f =>
    if s.enabled f = false then s
    else if 0x400 ≤ o then s.modFn f (fun r => { r with page := Sparse.setList (fun _ => 0#8) r.page o (leBytes 4 x.toNat) })
    else if 0x40 ≤ o ∨ x = 0 then s
    else s.regErr addr 0x0012
  | _ => if x = 0 then s else s.regErr addr 0x0012

/-- The value a register's fields take from a write of the bits `m` of `w` (R13). -/
def rwValue (i : RegInfo) (old w m : Word64) : Word64 :=
  let rw := BitVec.ofNat 64 (i.accMask .rw) &&& m
  ((old &&& ~~~ rw) ||| (w &&& rw)) &&& ~~~ (BitVec.ofNat 64 (i.accMask .w1c) &&& w &&& m)

/-- Put the value `new` into a register of the scheduling and device blocks whose range check holds (R377, R394, R395,
R428). -/
def State.rangeStore (s : State) (addr : Nat) (new : Word64) (bad : Bool) (st : Status) : State :=
  if bad then s.regErr addr st else s.setReg addr new

/-- A write to a register of a Leapfrog channel or LF_CFG (R344, R373, R377). -/
def State.lfStoreReg (s : State) (addr o : Nat) (new raw : Word64) : State :=
  if o < 0x400 then
    let ch := o / 0x40
    match o % 0x40 with
    | 0x0 => s.wrLfBase ch raw
    | 0x8 => s.wrLfCfg ch raw
    | 0x10 => s.wrLfDb ch raw
    | 0x14 => s.wrLfCtl ch raw
    | _ => s.setReg addr new
  else if o = 0x2800 then
    s.rangeStore addr new (decide (bits new 62 56 < 2) || decide (49 < bits new 62 56) || decide (bits new 31 24 = 0) ||
      decide (bits new 23 16 = 0)) 0x0D0A
  else s.setReg addr new

/-- A write to a register of a function's FE_ page (R282, R295, R296). -/
def State.feStoreReg (s : State) (f addr o : Nat) (new raw : Word64) : State :=
  if o < 0x200 then
    let r := o / 0x40
    match o % 0x40 with
    | 0x0 | 0x8 => s.wrRingBase f r addr raw
    | 0x10 => s.wrRingCfg f r raw
    | _ => s.setReg addr new
  else if 0x1000 ≤ o then
    let q := (o - 0x1000) / 0x10
    match o % 0x10 with
    | 0x0 => s.wrQBase f q raw
    | 0x8 => s.wrQCfg f q raw
    | _ => s.setReg addr new
  else match o with
    | 0x200 => s.wrFeFunc f addr new (decide (bits new 5 0 ≠ 0))
    | 0x208 => s.wrFeFunc f addr new false
    | 0x210 => s.wrFeFunc f addr new (decide (bits new 7 0 ≠ 0))
    | 0x218 =>
      let l := bits new 3 0
      s.wrFeFunc f addr new (decide (l ≠ 0) && (decide (l < 4) || decide (12 < l)))
    | _ => s.setReg addr new

/-- A write to a register of core `k`'s blocks. -/
def State.coreStoreReg (s : State) (b : Block) (addr o : Nat) (new raw : Word64) : State :=
  let ctxOf (x : Nat) : CtxId := ⟨x % 4, Nat.mod_lt x (by decide)⟩
  match b with
  | .ma k =>
    if o = 0 then s.wrMaBallast k new
    else if o = 4 then s.wrMaRise k new
    else (match idx o 0x10 4 4 with
      | some c => s.wrMaCtxAcc k (ctxOf c) new
      | none => s.setReg addr new)
  | .ve k => (match idx o 0 4 4 with
    | some c => s.wrVeCtx k c new
    | none => s.setReg addr new)
  | .sp k => (match idx o 0x100 4 48 with
    | some g => s.wrSpSeg k g new
    | none => (match idx o 0x200 4 4 with
      | some c => s.wrSpRxCtl k c raw
      | none => (match idx o 0x300 4 4 with
        | some c => s.wrSpPgCfg k c new
        | none => (match idx o 0x310 4 4 with
          | some c => s.wrSpPgCtl k c raw
          | none => s.setReg addr new))))
  | .flg k =>
    if o = 0x40 then s.wrFlgFwSet k raw
    else if o = 0x48 then s.wrFlgFwClr k raw
    else (match idx o 0 4 4 with
      | some c => s.wrFlgCtx k c new
      | none => s.setReg addr new)
  | _ => s.setReg addr new

/-- The effect of a write on the register at offset `o` of a block, reserved bits and locks passed: `new` has its fields as
their access codes leave them, `raw` the bits as written, and `quiet` is what LNK_CTL's SLEEP wants. -/
def State.namedStore (s : State) (b : Block) (addr o : Nat) (new raw : Word64) (quiet : Bool) : State :=
  match b with
  | .top => if o = 0xA20 then (s.setReg addr new).saveSettings else s.setReg addr new
  | .lnk => if o < 0x800 ∧ o % 0x80 = 0 then s.wrLnkCtl (o / 0x80) raw quiet else s.setReg addr new
  | .lf => s.lfStoreReg addr o new raw
  | .hbm =>
    if o < 0x800 ∧ o % 0x100 = 8 then s.rangeStore addr new (decide (bits new 7 0 = 0)) 0x0E09
    else if o = 0x1000 then
      s.rangeStore addr new (decide (bits new 63 48 = 0) || decide (bits new 47 32 = 0) || decide (bits new 31 16 = 0) ||
        decide (bits new 15 0 = 0)) 0x0E09
    else s.setReg addr new
  | .pwr => if o = 0x40 then s.wrTin raw else if o = 0x100 then s.wrSleepReq raw else s.setReg addr new
  | .fw => if 0x600 ≤ o ∧ o < 0x800 then s.kick ((o - 0x600) / 4) else s.setReg addr new
  | .feChip =>
    if o = 0x80 then
      s.rangeStore addr new (decide (bits new 31 16 < 100) || decide (bits new 15 8 < 5) || decide (bits new 7 0 = 0) ||
        decide (bits new 31 16 < 4 * bits new 15 8)) 0x0F07
    else s.setReg addr new
  | .fe f => s.feStoreReg f addr o new raw
  | .mbx f =>
    if s.enabled f = false then s
    else if o = 0 then s.mbxPost f 3 raw
    else if o = 0x10 then s.wrNrHead f (BitVec.ofNat 32 raw.toNat)
    else s.setReg addr new
  | _ => s.coreStoreReg b addr o new raw

/-- A 4-byte write that its chapter wants as one of 8 bytes (R439, R543). -/
def State.halfStore (s : State) (b : Block) (o addr : Nat) : Option State :=
  match b with
  | .pwr => if o = 0x100 then some (s.regErr addr 0x1103) else none
  | .mbx f => if o = 0 then some (s.mbxPost f 2 0) else none
  | _ => none

/-- One part of a write (R10, R13, R15, R272): `x` is the part's bits. -/
def State.partStore (s : State) (p : RegPart) (x : Nat) (quiet : Bool) : State :=
  match blockOf p.start with
  | none => s
  | some (b, o) =>
    if s.unitAbsent b o then s.regErr p.at_ 0x0011
    else match regInfo s.variant p.start with
      | none => s.unnamedStore b o p.at_ (BitVec.ofNat 64 x)
      | some i =>
        let w : Word64 := BitVec.ofNat 64 x <<< p.shift
        let m : Word64 := BitVec.ofNat 64 (2 ^ p.width - 1) <<< p.shift
        let half : Option State := if i.wide ∧ p.width = 32 then s.halfStore b o p.at_ else none
        match half with
        | some t => t
        | none =>
          if w &&& ~~~ BitVec.ofNat 64 i.mask ≠ 0 then s.regErr p.at_ 0x0012
          else if s.shadowLocked p.start then s.regErr p.at_ 0x0A07
          else
            let old := s.reg p.start
            let t := s.namedStore b p.start o (rwValue i old w m) ((old &&& ~~~ m) ||| w) quiet
            if s.reg R.TOP_REG_ERR = 0 ∧ t.fld R.TOP_REG_ERR 47 0 = p.start then t.setFld R.TOP_REG_ERR 47 0 p.at_ else t

/-- A register write that has passed R38 (R543). -/
def State.regStore (s : State) (addr : Nat) (wide : Bool) (v : Word64) (quiet : Bool) : State :=
  ((regParts s.variant addr wide).foldl (fun (x : State × Nat) p =>
    (x.1.partStore p (natBits v.toNat (x.2 + p.width - 1) x.2) quiet, x.2 + p.width)) (s, 0)).1

/-! ## Refusal -/

/-- Where a register access that fails R38 is delivered: to the running context of a core, or to a processor's
containment. A host's is discarded, and the sideband's is its result. -/
def State.denied (s : State) (a : Agent) (addr : Nat) (st : Status) : State :=
  match a with
  | .core k =>
    let c := (s.core k.val).run
    s.faultCtx k.val c { unit := 1, status := st, seq := (s.core k.val).seqNo, pc := s.pc k.val c.val, addr := addr }
  | .fw i => s.regionFault i.val (some 0) st
  | _ => s

/-- An agent writes a register. -/
def State.agentStore (s : State) (a : Agent) (addr : Nat) (wide : Bool) (v : Word64) (quiet : Bool) : State :=
  let st := s.regCheck a addr (if wide then 8 else 4) (some v)
  if st ≠ 0 then s.denied a addr st
  else if s.regHeld addr then s
  else s.regStore addr wide v quiet

end Sys2Proof.Machine
end

