-- ==== Sys2Proof/Machine/RegRows.lean ====
section
/-!
DEFINITION. The commands that read and write registers: RLD and RST (R164), the host's BARs (R400 to R402), the sideband
(R522, R523), and the register writes that have rows of their own.
-/

namespace Sys2Proof.Machine

/-! ## Accesses of firmware processors (R38, R187, R432) -/

/-- A region of processor `i` with the needed permission holds the address, or it is a register (R431). -/
def State.permitted (s : State) (i : Nat) (write : Bool) (addr : Nat) : Bool :=
  s.regionOf addr 1 == some .reg || (Sparse.get (fun _ => []) s.fw.prot i).any (fun r =>
    decide (r.base ≤ addr) && decide (addr < r.base + 2 ^ r.log) && (if write then r.wr else r.rd))

/-- How an access of processor `i` at an address fails: R38 refuses it, or it reads a word that R185 rows 1 to 4 or R384
rows 1 to 4 decide, or else its own regions do not permit it, which is GS_100A (R187, R432); 0 for one that is permitted. The
registers that R38 lets a processor reach are granted to it by their chapters (R431). -/
def State.fwAccess (s : State) (i : ProcId) (write : Bool) (addr : Nat) : State × Status :=
  let st := match s.regionOf addr 1 with
    | some .reg => s.regCheck (.fw i) (addr / 4 * 4) 4 (if write then some 0 else none)
    | _ => s.memAccess (.fw i) addr 1
  if st ≠ 0 then (s, st)
  else
    let stored := match s.regionOf addr 1 with
      | some .hbm | some (.window _) | some (.phys _) => !write
      | _ => false
    let r := if stored then s.memRead addr 1 else (s, [], 0)
    (r.1, if r.2.2 ≠ 0 then r.2.2 else if s.permitted i.val write addr then 0 else 0x100A)

/-- REGION_FAULT (R38, R187, R432): the access of a component, or of the supervisor (`none`), has no effect but what a read's
resolution records. -/
def execRegionFault (x : FwPart) (write : Bool) (addr : Addr) (s : State) : Out :=
  .next (
    if s.procState x.proc.val ≠ 2 then s
    else
      let r := s.fwAccess x.proc write addr.toNat
      if r.2 = 0 then s else r.1.regionFault x.proc.val x.comp r.2)

/-! ## RLD and RST (R164) -/

/-- RLD (R164, R159): the register is read without translation, for the running context. -/
def execRld (k : CoreId) (f : IBits) (s : State) : Out :=
  .next (s.issue k.val 0x32 f 1 [fRD f, fRA f] fun s c =>
    let a := s.effAddr k.val c.val f
    let n := fSize f
    match firstOf [(decide (bits f 43 32 ≠ 0), (0x0602 : Status)), (decide (n < 4), 0x0603), (decide (a % n ≠ 0), 0x0604)] with
    | some st => .fault s st 0 0
    | none =>
      let st := s.regCheck (.core k) a n none
      if st ≠ 0 then .fault s st a 0
      else if s.regHeld a then .stall
      else
        let r := s.regLoad (.core k) a (decide (n = 8)) false
        .done (r.1.setSreg k.val c.val (fRD f) r.2))

/-- RST (R164, R159): a posted write; one that is discarded raises no fault. -/
def execRst (k : CoreId) (f : IBits) (s : State) : Out :=
  .next (s.issue k.val 0x33 f 1 [fRD f, fRA f] fun s c =>
    let a := s.effAddr k.val c.val f
    let n := fSize f
    let v := s.sreg k.val c.val (fRD f)
    match firstOf [(decide (bits f 43 32 ≠ 0), (0x0602 : Status)), (decide (n < 4), 0x0603), (decide (a % n ≠ 0), 0x0604)] with
    | some st => .fault s st 0 0
    | none =>
      let st := s.regCheck (.core k) a n (some v)
      if st ≠ 0 then .fault s st a 0
      else if s.regHeld a then .stall
      else .done (s.regStore a (decide (n = 8)) v true))

/-! ## Register writes -/

/-- A 4-byte write. -/
def State.store32 (s : State) (a : Agent) (addr : Nat) (v : BitVec 32) : State :=
  s.agentStore a addr false (BitVec.ofNat 64 v.toNat) true

/-- REGISTER_WRITE (R13). -/
def execRegisterWrite (a : Agent) (addr : Addr) (wide : Bool) (v : Word64) (s : State) : Out :=
  .next (s.agentStore a addr.toNat wide v true)

/-- MA_CTX_ACC_WRITE (R83). -/
def execMaCtxAccWrite (a : Agent) (k : CoreId) (c : CtxId) (v : BitVec 32) (s : State) : Out :=
  .next (s.store32 a (R.MA_CTX_ACC k.val c.val) v)

/-- MA_BALLAST_CTL_WRITE (R87). -/
def execMaBallastCtlWrite (a : Agent) (k : CoreId) (v : BitVec 32) (s : State) : Out :=
  .next (s.store32 a (R.MA_BALLAST_CTL k.val) v)

/-- MA_RISE_CTL_WRITE (R88). -/
def execMaRiseCtlWrite (a : Agent) (k : CoreId) (v : BitVec 32) (s : State) : Out :=
  .next (s.store32 a (R.MA_RISE_CTL k.val) v)

/-- VE_CTX_WRITE (R130). -/
def execVeCtxWrite (a : Agent) (k : CoreId) (c : CtxId) (v : BitVec 32) (s : State) : Out :=
  .next (s.store32 a (R.VE_CTX k.val c.val) v)

/-- SP_SEG_WRITE (R182). -/
def execSpSegWrite (a : Agent) (k : CoreId) (seg : Fin 48) (v : BitVec 32) (s : State) : Out :=
  .next (s.store32 a (R.SP_SEG k.val seg.val) v)

/-- OFFER (R195): a write of SP_RX_CTL_k whose OP is OFFER. -/
def execOffer (a : Agent) (k : CoreId) (c : CtxId) (v : BitVec 32) (s : State) : Out :=
  .next (if bits v 31 30 = 1 then s.store32 a (R.SP_RX_CTL k.val c.val) v else s)

/-- WITHDRAW (R195): a write of SP_RX_CTL_k whose OP is WITHDRAW. -/
def execWithdraw (a : Agent) (k : CoreId) (c : CtxId) (v : BitVec 32) (s : State) : Out :=
  .next (if bits v 31 30 = 2 then s.store32 a (R.SP_RX_CTL k.val c.val) v else s)

/-- FLUSH (R228). -/
def execFlush (a : Agent) (k : CoreId) (c : CtxId) (s : State) : Out :=
  .next (s.store32 a (R.SP_PG_CTL k.val c.val) 0x80000000)

/-- SP_PG_CFG_WRITE (R226, R227). -/
def execSpPgCfgWrite (a : Agent) (k : CoreId) (c : CtxId) (v : BitVec 32) (s : State) : Out :=
  .next (s.store32 a (R.SP_PG_CFG k.val c.val) v)

/-- FLG_CTX_WRITE (R251). -/
def execFlgCtxWrite (a : Agent) (k : CoreId) (c : CtxId) (v : BitVec 32) (s : State) : Out :=
  .next (s.store32 a (R.FLG_CTX k.val c.val) v)

/-- FLG_FW_SET (R252). -/
def execFlgFwSet (a : Agent) (k : CoreId) (v : Word64) (s : State) : Out :=
  .next (s.agentStore a (R.FLG_FW_SET k.val) true v true)

/-- FLG_FW_CLR (R252). -/
def execFlgFwClr (a : Agent) (k : CoreId) (v : Word64) (s : State) : Out :=
  .next (s.agentStore a (R.FLG_FW_CLR k.val) true v true)

/-- RING_ENABLE (R282): a write of FE_RING_CFG_r with EN = 1. -/
def execRingEnable (a : Agent) (fn : FuncId) (r : Fin 8) (v : BitVec 32) (s : State) : Out :=
  .next (if bit v 31 then s.store32 a (R.FE_RING_CFG fn.val r.val) v else s)

/-- RING_DISABLE (R282): a write of FE_RING_CFG_r with EN = 0. -/
def execRingDisable (a : Agent) (fn : FuncId) (r : Fin 8) (v : BitVec 32) (s : State) : Out :=
  .next (if bit v 31 then s else s.store32 a (R.FE_RING_CFG fn.val r.val) v)

/-- QUEUE_ENABLE (R296): a write of FE_Q_CFG_q with EN = 1. -/
def execQueueEnable (a : Agent) (fn : FuncId) (q : BitVec 8) (v : BitVec 32) (s : State) : Out :=
  .next (if bit v 31 then s.store32 a (R.FE_Q_CFG fn.val q.toNat) v else s)

/-- QUEUE_DISABLE (R296): a write of FE_Q_CFG_q with EN = 0. -/
def execQueueDisable (a : Agent) (fn : FuncId) (q : BitVec 8) (v : BitVec 32) (s : State) : Out :=
  .next (if bit v 31 then s else s.store32 a (R.FE_Q_CFG fn.val q.toNat) v)

/-- A write of LNK_CTL_l that sets OP and leaves MAXTRY and LANEMASK as they are. -/
def State.lnkCommand (s : State) (a : Agent) (l op : Nat) (quiet : Bool) : State :=
  s.agentStore a (R.LNK_CTL l) false
    (BitVec.ofNat 64 (op * 2 ^ 29 + s.fld (R.LNK_CTL l) 11 8 * 2 ^ 8 + s.fld (R.LNK_CTL l) 1 0)) quiet

/-- ENABLE (R335). -/
def execEnable (a : Agent) (l : LinkId) (s : State) : Out := .next (s.lnkCommand a l.val 1 true)

/-- DISABLE (R335). -/
def execDisable (a : Agent) (l : LinkId) (s : State) : Out := .next (s.lnkCommand a l.val 2 true)

/-- RESTART (R335). -/
def execRestart (a : Agent) (l : LinkId) (s : State) : Out := .next (s.lnkCommand a l.val 3 true)

/-- SLEEP (R327): `quiet` says that no wake event comes in the tick that accepts it (R329). -/
def execSleep (a : Agent) (l : LinkId) (quiet : Bool) (s : State) : Out := .next (s.lnkCommand a l.val 4 quiet)

/-- WAKE (R329). -/
def execWake (a : Agent) (l : LinkId) (s : State) : Out := .next (s.lnkCommand a l.val 5 true)

/-- LF_CH_DB (R344). -/
def execLfChDb (a : Agent) (ch : ChanId) (v : BitVec 32) (s : State) : Out := .next (s.store32 a (R.LF_CH_DB ch.val) v)

/-- RESUME (R373). -/
def execResume (a : Agent) (ch : ChanId) (s : State) : Out := .next (s.store32 a (R.LF_CH_CTL ch.val) 0x80000000)

/-- LF_CHANNEL_ENABLE (R373): a write of LF_CH_CFG_c with EN = 1. -/
def execLfChannelEnable (a : Agent) (ch : ChanId) (v : BitVec 32) (s : State) : Out :=
  .next (if bit v 31 then s.store32 a (R.LF_CH_CFG ch.val) v else s)

/-- LF_CHANNEL_DISABLE (R373): a write of LF_CH_CFG_c with EN = 0. -/
def execLfChannelDisable (a : Agent) (ch : ChanId) (v : BitVec 32) (s : State) : Out :=
  .next (if bit v 31 then s else s.store32 a (R.LF_CH_CFG ch.val) v)

/-- FW_KICK (R454). -/
def execFwKick (a : Agent) (i : ProcId) (s : State) : Out := .next (s.store32 a (R.FW_KICK i.val) 0)

/-- PWR_SLEEP_REQ (R460). -/
def execPwrSleepReq (a : Agent) (v : Word64) (s : State) : Out := .next (s.agentStore a R.PWR_SLEEP_REQ true v true)

/-- PWR_TIN_WRITE (R466). -/
def execPwrTinWrite (a : Agent) (v : BitVec 32) (s : State) : Out := .next (s.store32 a R.PWR_TIN v)

/-! ## BAR0 (R401) -/

/-- A completion of a host read. -/
def State.complete (s : State) (f : Nat) (c : HostCpl) : State := (s.setCpls (s.cpls ++ [(f, c)]))

/-- A host access to a register has a register's width and lies on it (R38 check 4). -/
def regSized (off n : Nat) : Bool := (decide (n = 4) || decide (n = 8)) && decide (off % n = 0)

/-- The register of the partition view at 8-byte slot `j` (R401). -/
def viewSlot (p j : Nat) : Option Nat :=
  match j with
  | 0 => some (R.MMU_PCFG p)
  | 1 => some (R.MMU_PJOB p)
  | 2 => some (R.MMU_TOFF p)
  | 4 => some (R.MMU_FAULT p)
  | 6 => some (R.FE_PSHARE p)
  | _ => none

/-- A read of the partition view; one of MMU_FAULT_p with 8 bytes clears it. -/
def State.viewLoad (s : State) (f : FuncId) (x n : Nat) : State × Nat :=
  match s.partOfFunc f.val with
  | none => (s, 0)
  | some p => match viewSlot p (x / 8) with
    | none => (s, 0)
    | some a =>
      let v := s.regView (.host f) a
      (if x / 8 = 4 ∧ n = 8 then s.regClear a else s, if n = 8 then v.toNat else natBits v.toNat (8 * (x % 8) + 31) (8 * (x % 8)))

/-- The bytes of a function's MSI-X table and pending-bit array. -/
def State.msixBytes (s : State) (f x n : Nat) : List Byte :=
  let t := s.fn f
  (List.range n).map (fun i =>
    let o := x + i
    if o < 0x100 then (if o % 16 = 12 then BitVec.ofNat 8 (t.msixMask.testBit (o / 16)).toNat else Sparse.get (fun _ => 0#8) t.msixTab o)
    else if 0x800 ≤ o ∧ o < 0x802 then BitVec.ofNat 8 (t.msixPend >>> (8 * (o - 0x800)))
    else 0#8)

/-- A register read by a host: `none` where R38 refuses it. -/
def State.hostLoad (s : State) (f : FuncId) (addr n : Nat) (view : Bool) : State × Option (List Byte) :=
  let secret : Bool := match blockOf addr with | some (.sec, _) => true | none => true | _ => false
  if regSized addr n = false ∨ (view = true ∧ secret = true) then (s, none)
  else if view = false ∧ s.regCheck (.host f) addr n none ≠ 0 then (s, none)
  else
    let r := s.regLoad (.host f) addr (decide (n = 8)) view
    (r.1, some (leBytes n r.2.toNat))

/-- A read of BAR0 (R401, R437); `none` where R38 refuses it. -/
def State.bar0Load (s : State) (f : FuncId) (off n : Nat) : State × Option (List Byte) :=
  let e := off + n
  if 0x2000 ≤ off ∧ e ≤ 0x4000 then s.hostLoad f (R.feBase f.val + (off - 0x2000)) n false
  else if 0x5000 ≤ off ∧ e ≤ 0x5400 then s.hostLoad f (R.mbxBase f.val + (off - 0x5000)) n false
  else if 0x5400 ≤ off ∧ e ≤ 0x6000 then (s, some (s.pageAt f.val (off - 0x5000) n))
  else if 0x6000 ≤ off ∧ e ≤ 0x7000 then (s, some (s.msixBytes f.val (off - 0x6000) n))
  else if 0x8000 ≤ off ∧ e ≤ 0x8100 then
    if regSized off n then
      let r := s.viewLoad f (off - 0x8000) n
      (r.1, some (leBytes n r.2))
    else (s, none)
  else if f.val = 0 ∧ 0x1000_0000 ≤ off ∧ e ≤ 0x4000_0000 then s.hostLoad f (R.topBase + (off - 0x1000_0000)) n true
  else (s, some (List.replicate n 0#8))

/-- The exponent of an access of 1, 2, 4 or 8 bytes. -/
def sizeLog (n : Nat) : Option Nat :=
  match n with
  | 1 => some 0
  | 2 => some 1
  | 4 => some 2
  | 8 => some 3
  | _ => none

/-- A write to the doorbell page (R283); other offsets and widths are discarded. -/
def State.doorbellStore (s : State) (f off : Nat) (data : List Byte) : State :=
  let v : Word64 := BitVec.ofNat 64 (leNat data)
  match sizeLog data.length with
  | none => s
  | some z =>
    match idx off 0x0 8 8 with
    | some r => s.subDoorbell f r z v
    | none => match idx off 0x40 8 8 with
      | some r => s.cplDoorbell f r z v
      | none => match idx off 0x400 4 256 with
        | some q => s.queueDoorbell f q z v
        | none => s

/-- A write to the MSI-X table (R401): lifting a mask raises what was pending. -/
def State.msixStore (s : State) (f o : Nat) : List Byte → State
  | [] => s
  | b :: r =>
    let s :=
      if 0x100 ≤ o then s
      else if o % 16 = 12 then
        let v := o / 16
        let x := s.fn f
        let rest := x.msixMask &&& (0xFFFF ^^^ 2 ^ v)
        if b.getLsbD 0 then s.modFn f (fun x => { x with msixMask := rest + 2 ^ v })
        else
          let s := s.modFn f (fun x => { x with msixMask := rest, msixPend := x.msixPend &&& (0xFFFF ^^^ 2 ^ v) })
          if x.msixPend.testBit v then s.raiseMsix f v else s
      else if 12 < o % 16 then s
      else s.modFn f (fun x => { x with msixTab := Sparse.set (fun _ => 0#8) x.msixTab o b })
    s.msixStore f (o + 1) r

/-- A write to the message slots; bytes of the notice ring keep what they hold (R437). -/
def State.slotStore (s : State) (f o : Nat) (data : List Byte) : State :=
  s.modFn f (fun x => { x with page := Sparse.setList (fun _ => 0#8) x.page o (data.take (0x800 - o)) })

/-- A register write by a host, discarded where R38 refuses it. -/
def State.hostStore (s : State) (f : FuncId) (addr : Nat) (data : List Byte) : State :=
  if regSized addr data.length then
    s.agentStore (.host f) addr (decide (data.length = 8)) (BitVec.ofNat 64 (leNat data)) true
  else s

/-- A write of BAR0 (R283, R401, R437, R439). -/
def State.bar0Store (s : State) (f : FuncId) (off : Nat) (data : List Byte) : State :=
  let e := off + data.length
  if e ≤ 0x1000 then s.doorbellStore f.val off data
  else if 0x2000 ≤ off ∧ e ≤ 0x4000 then s.hostStore f (R.feBase f.val + (off - 0x2000)) data
  else if 0x4000 ≤ off ∧ e ≤ 0x4400 then
    let a := R.lfBase + (off - 0x4000)
    let cfg := R.LF_CH_CFG ((off - 0x4000) / 0x40)
    let mine : Bool := s.variant.lf && s.bitOf cfg 24 && (match s.partOfFunc f.val with
      | some p => decide (s.fld cfg 23 20 = p)
      | none => false)
    if mine ∧ (off % 0x40 = 0x10 ∨ (off % 0x40 = 0x14 ∧ data.length = 4)) then s.hostStore f a data else s
  else if 0x5000 ≤ off ∧ off < 0x5008 then
    if off = 0x5000 ∧ data.length = 8 then s.hostStore f (R.mbxBase f.val) data else s.mbxPost f.val 0 0
  else if 0x5008 ≤ off ∧ e ≤ 0x5040 then s.hostStore f (R.mbxBase f.val + (off - 0x5000)) data
  else if 0x5400 ≤ off ∧ off < 0x5800 then s.slotStore f.val (off - 0x5000) data
  else if 0x6000 ≤ off ∧ e ≤ 0x7000 then s.msixStore f.val (off - 0x6000) data
  else if f.val = 0 ∧ 0x1000_0000 ≤ off ∧ e ≤ 0x4000_0000 then s.regErr (R.topBase + (off - 0x1000_0000)) 0x0102
  else s

/-! ## BAR2 and BAR4 (R400, R402) -/

/-- The partition virtual address that an offset of an aperture is. -/
def apertureVa (bar : Bar) (off : Nat) : Nat := match bar with | .bar4 => winBase + off | _ => off

/-- Whether a range lies in a BAR of a function (R400). -/
def inBar (f : Nat) (bar : Bar) (off n : Nat) : Bool :=
  match bar with
  | .bar0 => decide (off + n ≤ (if f = 0 then 0x4000_0000 else 0x1_0000))
  | .bar2 => decide (off + n ≤ 0x100_0000_0000)
  | .bar4 => decide (off + n ≤ 0x1_0000_0000)

/-- The cores whose windows a list of pieces lies in. -/
def State.pieceCores (s : State) (ps : List (Nat × Nat)) : List Nat :=
  ps.filterMap (fun x => match s.regionOf x.1 x.2 with | some (.window k) => some k | _ => none)

/-- The access meets a position that is OFF, or in RETAIN with ACCESS not armed (R459). -/
def State.sleeps (s : State) (k : Nat) : Bool :=
  match s.phys k with
  | some p => let st := s.lowState p; st == 4 || (st == 3 && !s.armed p 0)
  | none => false

/-- How a host access to an aperture is admitted: the partition's pieces, a refusal, or a wait for a held window or a
sleeping position (R39, R402, R458). -/
inductive Aperture where
  | ok (s : State) (ps : List (Nat × Nat))
  | refused (s : State)
  | waits (s : State)

/-- Translate and check a host access (R402). -/
def State.aperture (s : State) (p va n : Nat) (wr : Bool) : Aperture :=
  let (s, ps, st) := s.translate .fe 2 p va n wr
  if st ≠ 0 then .refused s
  else if s.piecesAccess .lf ps ≠ 0 then .refused (s.mmuFault p va 2 (s.piecesAccess .lf ps))
  else if s.lfOwned p ps = false then .refused (s.mmuFault p va 2 0x0102)
  else if (s.pieceCores ps).any s.sleeps then .refused s
  else if (s.pieceCores ps).any s.shut ∨ s.pieceStacks ps then .waits s
  else .ok s ps

/-- Write the bytes of a host access piece by piece; a merge that a window refuses is counted (R186, R204). -/
def State.hostPut (s : State) (data : List TByte) : List (Nat × Nat) → State
  | [] => s
  | (a, n) :: r =>
    let x := s.memWrite a (data.take n)
    let s := match s.regionOf a n with
      | some (.window k) => if x.2 = 0x0705 then x.1.satInc (R.SP_DROP_CNT k) 31 0 else x.1
      | _ => x.1
    s.hostPut (data.drop n) r

/-- BAR_HOST_READ (R401, R402, R187). -/
def execBarHostRead (fn : FuncId) (bar : Bar) (off : BitVec 48) (len : BitVec 12) (s : State) : Out :=
  .next (
    let f := fn.val
    let n := len.toNat
    if s.enabled f = false ∨ inBar f bar off.toNat n = false then s.complete f .ur
    else if bar = .bar0 then
      let held := decide (f = 0) && decide (0x1000_0000 ≤ off.toNat) && s.regHeld (R.topBase + (off.toNat - 0x1000_0000))
      if held then s
      else
        let r := s.bar0Load fn off.toNat n
        r.1.complete f (match r.2 with | some b => .data b | none => .ca)
    else match s.partOfFunc f with
      | none => s.complete f .ur
      | some p => match s.aperture p (apertureVa bar off.toNat) n false with
        | .refused t => t.complete f .ca
        | .waits _ => s
        | .ok t ps =>
          let (t, d, _) := t.piecesRead ps
          t.complete f (if d.all (fun b => b.isSome) then .data (clean d) else .poisoned n))

/-- A posted write waits: it is kept in its order of arrival (R215). -/
def State.postWrite (s : State) (f : Nat) (bar : Bar) (off : Nat) (data : List Byte) : State :=
  if s.fe.posted.any (fun p => p.func == f && p.bar = bar && p.off == off && p.data = data) then s
  else s.setFe { s.fe with posted := s.fe.posted ++ [⟨f, bar, off, data, s.fe.postedNo⟩], postedNo := s.fe.postedNo + 1 }

/-- A posted write has been performed, or discarded with its record. -/
def State.postDone (s : State) (f : Nat) (bar : Bar) (off : Nat) (data : List Byte) : State :=
  s.setFe { s.fe with posted := s.fe.posted.eraseP (fun p => p.func == f && p.bar = bar && p.off == off && p.data = data) }

/-- BAR_HOST_WRITE (R215, R401, R402): one that must wait is kept, and comes again when it can be performed. -/
def execBarHostWrite (fn : FuncId) (bar : Bar) (off : BitVec 48) (data : List Byte) (s : State) : Out :=
  .next (
    let f := fn.val
    let n := data.length
    if s.enabled f = false ∨ inBar f bar off.toNat n = false then s
    else if bar = .bar0 then s.bar0Store fn off.toNat data
    else match s.partOfFunc f with
      | none => s
      | some p => match s.aperture p (apertureVa bar off.toNat) n true with
        | .refused t => t.postDone f bar off.toNat data
        | .waits _ => s.postWrite f bar off.toNat data
        | .ok t ps => (t.hostPut (carried data) ps).postDone f bar off.toNat data)

/-! ## Sideband (R522, R523) -/

/-- The width of the register at an address. -/
def sbWide (v : Variant) (a : Nat) : Bool := wideAt v a

/-- Whether the sideband may name a register in REG_READ (R523); TOP_REG_ERR and its count stay closed (R534). -/
def State.sbReads (s : State) (a : Nat) : Bool :=
  match blockOf a with
  | some (.top, o) => s.mayRead .sideband .top o
  | some (.pwr, _) => true
  | some (.chr, o) => o == 0 || o == 0x10
  | some (.hbm, o) => decide (o < 0x800) && decide (o % 0x100 = 0)
  | some (.fw, o) => decide (o = 0x800) || (idx o 0 8 35).isSome
  | _ => false

/-- Whether REG_WRITE may name a register (R523). -/
def sbWrites (a : Nat) : Bool :=
  match blockOf a with
  | some (.top, o) => o == 0xA30 || o == 0xA38
  | some (.pwr, o) => decide (o = 0x40) || (decide (0x500 ≤ o) && decide (o < 0x528))
  | _ => false

/-- The checks of R38 on a sideband access. -/
def State.sbCheck (s : State) (a : Nat) (wide ok : Bool) : Status :=
  let n := if wide then 8 else 4
  match s.regionOf a n with
  | none => 0x0101
  | some .reg => if !ok then 0x0102 else if a % n ≠ 0 then 0x0103 else 0
  | some _ => 0x0102

/-- REG_READ (R523): its result is 8 bytes. -/
def execRegRead (addr : Addr) (s : State) : Out :=
  .next (s.sbRun 0x10 (fun s =>
    let a := addr.toNat
    let wide := sbWide s.variant a
    let st := s.sbCheck a wide (s.sbReads a)
    if st ≠ 0 then (s, st, [])
    else
      let r := s.regLoad .sideband a wide false
      (r.1, 0, leBytes 8 r.2.toNat)))

/-- REG_WRITE (R523): a locked shadow gives GS_0A07; the status of a write that R15 discards is open. -/
def execRegWrite (addr : Addr) (v : Word64) (s : State) : Out :=
  .next (s.sbRun 0x12 (fun s =>
    let a := addr.toNat
    let wide := sbWide s.variant a
    let st := s.sbCheck a wide (sbWrites a)
    if st ≠ 0 then (s, st, [])
    else
      let t := s.regStore a wide v true
      let extra := decide (v.toNat &&& (2 ^ (if wide then 64 else 32) - 1) ≠ v.toNat &&& (match regInfo s.variant a with
        | some i => i.mask
        | none => 0))
      if extra then (t.takeFree, Config.sbStatus s.free, [])
      else (t, if s.shadowLocked a then 0x0A07 else 0, [])))

end Sys2Proof.Machine
end

