-- ==== Sys2Proof/Machine/Remote.lean ====
section
/-!
DEFINITION. Remote accesses as they reach an inbound engine (R181, R191, R194, R197), and accesses through the physical-core
windows (R36, R40).
-/

namespace Sys2Proof.Machine

/-! ## Physical-core windows (R36, R40) -/

/-- Where byte `off` of the physical-core window of position `p` lies (R36). -/
def physAddr (p off : Nat) : Nat := physBase + p * 0x40_0000 + off

/-- The answer of an access through a physical-core window: a core's transfer takes it as a response; a processor keeps it,
and one that fails R38 is its region fault (R38, R432). -/
def State.diagAnswer (s : State) (a : Agent) (dst : Source) (xfer : Nat) (d : List TByte) (st : Status) : State :=
  match a with
  | .fw i =>
    let s := s.setFw { s.fw with ans := d, ansSt := st }
    if st = 0 then s else s.regionFault i.val (some 0) st
  | .core _ => s.respond dst xfer st d
  | _ => s

/-- A write through a physical-core window (R40): the binding of the position does not matter. -/
def State.diagWrite (s : State) (a : Agent) (p : PhysId) (m : WriteMsg) : State :=
  let st := s.memAccess a (physAddr p.val m.off.toNat) m.data.length
  if st ≠ 0 then s.diagAnswer a m.src m.xfer [] st
  else
    let (s, st) := s.memWrite (physAddr p.val m.off.toNat) m.data
    s.diagAnswer a m.src m.xfer [] st

/-- A read or an at-memory operation through a physical-core window (R40). -/
def State.diagRead (s : State) (a : Agent) (p : PhysId) (m : ReadMsg) : State :=
  let x := physAddr p.val m.off.toNat
  let count (n : Nat) (exp : Option Nat) (inc : Word64) : State :=
    let st := s.memAccess a x n
    if st ≠ 0 then s.diagAnswer a m.src m.xfer [] st
    else
      let (s, old, st) := s.countAt x n exp inc.toNat
      match a with
      | .core _ => s.countResult m old st
      | _ => s.diagAnswer a m.src m.xfer (carried (leBytes 8 old.toNat)) st
  match m.op with
  | .bytes n =>
    let st := s.memAccess a x n
    if st ≠ 0 then s.diagAnswer a m.src m.xfer [] st
    else
      let (s, d, st) := s.memRead x n
      s.diagAnswer a m.src m.xfer d st
  | .count n inc => count n none inc
  | .ccount n exp inc => count n (some exp.toNat) inc

/-! ## Logical windows (R181, R191, R194, R197) -/

/-- REMOTE_WRITE (R194, R197): a write of another core's DMA engine or of the Leapfrog engine. A held window keeps the
packet waiting (R39). With `diag` it reaches the position named (R40). -/
def execRemoteWrite (k : CoreId) (m : WriteMsg) (s : State) : Out :=
  .next (match m.diag with
  | some (a, p) => (s.taken (.write m k.val)).diagWrite a p m
  | none =>
    if s.shut k.val then s
    else
      let s := s.taken (.write m k.val)
      let (s, st) := s.inboundWrite k.val m
      if m.lf then s else s.respond m.src m.xfer st [])

/-- REMOTE_READ (R181, R191): a read, or an at-memory operation, of another core. -/
def execRemoteRead (k : CoreId) (m : ReadMsg) (s : State) : Out :=
  .next (match m.diag with
  | some (a, p) => (s.taken (.read m k.val)).diagRead a p m
  | none =>
    if s.shut k.val then s
    else
      let s := s.taken (.read m k.val)
      let a := winBase + k.val * 0x40_0000 + m.off.toNat
      match m.op with
      | .bytes n =>
        let st := s.inboundAccess k.val m.off.toNat n m.part
        if st ≠ 0 then s.respond m.src m.xfer st []
        else
          let (s, d, st) := s.padRead k.val m.off.toNat n
          s.respond m.src m.xfer st d
      | .count n inc =>
        let st := s.inboundAccess k.val m.off.toNat n m.part
        if st ≠ 0 then s.countResult m 0 st
        else
          let (s, old, st) := s.countAt a n none inc.toNat
          s.countResult m old st
      | .ccount n exp inc =>
        let st := s.inboundAccess k.val m.off.toNat n m.part
        if st ≠ 0 then s.countResult m 0 st
        else
          let (s, old, st) := s.countAt a n (some exp.toNat) inc.toNat
          s.countResult m old st)

end Sys2Proof.Machine
end

