-- ==== Sys2Proof/Machine/Dispatch.lean ====
section
/-!
DEFINITION. One arm per command: each calls the one meaning of its command, or rejects it by name.
-/

namespace Sys2Proof.Machine

/-- What a command does. -/
def exec (i : Instr) (s : State) : Host.Outcome State Fault Refusal :=
  match i with
  | .registerWrite a addr wide v => Sys2Proof.Machine.execRegisterWrite a addr wide v s
  | .bridgeFlitReplay b ok => Sys2Proof.Machine.execBridgeFlitReplay b ok s
  | .bridgeFailed b => Sys2Proof.Machine.execBridgeFailed b s
  | .cclkRelockComplete d => Sys2Proof.Machine.execCclkRelockComplete d s
  | .mhold k f => Sys2Proof.Machine.execMhold k f s
  | .mholdLoad k => Sys2Proof.Machine.execMholdLoad k s
  | .mmul k f => Sys2Proof.Machine.execMmul k f s
  | .mmulStream k errs => Sys2Proof.Machine.execMmulStream k errs s
  | .mdrain k f => Sys2Proof.Machine.execMdrain k f s
  | .mdrainRun k errs => Sys2Proof.Machine.execMdrainRun k errs s
  | .mdiscard k f => Sys2Proof.Machine.execMdiscard k f s
  | .matrixOperandReadFault k word e => Sys2Proof.Machine.execMatrixOperandReadFault k word e s
  | .ballast k => Sys2Proof.Machine.execBallast k s
  | .levelRise k => Sys2Proof.Machine.execLevelRise k s
  | .levelFall k => Sys2Proof.Machine.execLevelFall k s
  | .maCtxAccWrite a k c v => Sys2Proof.Machine.execMaCtxAccWrite a k c v s
  | .maBallastCtlWrite a k v => Sys2Proof.Machine.execMaBallastCtlWrite a k v s
  | .maRiseCtlWrite a k v => Sys2Proof.Machine.execMaRiseCtlWrite a k v s
  | .vld k f => Sys2Proof.Machine.execVld k f s
  | .vst k f => Sys2Proof.Machine.execVst k f s
  | .vop k f => Sys2Proof.Machine.execVop k f s
  | .vcvt k f => Sys2Proof.Machine.execVcvt k f s
  | .vred k f => Sys2Proof.Machine.execVred k f s
  | .vrow k f => Sys2Proof.Machine.execVrow k f s
  | .nload k f => Sys2Proof.Machine.execNload k f s
  | .nrun k f => Sys2Proof.Machine.execNrun k f s
  | .vseed k f => Sys2Proof.Machine.execVseed k f s
  | .vectorStart k corr => Sys2Proof.Machine.execVectorStart k corr s
  | .vectorReadFault k word e cont => Sys2Proof.Machine.execVectorReadFault k word e cont s
  | .veCtxWrite a k c v => Sys2Proof.Machine.execVeCtxWrite a k c v s
  | .instructionFetch k row => Sys2Proof.Machine.execInstructionFetch k row s
  | .nop k f => Sys2Proof.Machine.execNop k f s
  | .add k f => Sys2Proof.Machine.execAdd k f s
  | .sub k f => Sys2Proof.Machine.execSub k f s
  | .and k f => Sys2Proof.Machine.execAnd k f s
  | .or k f => Sys2Proof.Machine.execOr k f s
  | .xor k f => Sys2Proof.Machine.execXor k f s
  | .shl k f => Sys2Proof.Machine.execShl k f s
  | .shrl k f => Sys2Proof.Machine.execShrl k f s
  | .shra k f => Sys2Proof.Machine.execShra k f s
  | .mul k f => Sys2Proof.Machine.execMul k f s
  | .min k f => Sys2Proof.Machine.execMin k f s
  | .max k f => Sys2Proof.Machine.execMax k f s
  | .minu k f => Sys2Proof.Machine.execMinu k f s
  | .maxu k f => Sys2Proof.Machine.execMaxu k f s
  | .slt k f => Sys2Proof.Machine.execSlt k f s
  | .sltu k f => Sys2Proof.Machine.execSltu k f s
  | .addi k f => Sys2Proof.Machine.execAddi k f s
  | .andi k f => Sys2Proof.Machine.execAndi k f s
  | .ori k f => Sys2Proof.Machine.execOri k f s
  | .xori k f => Sys2Proof.Machine.execXori k f s
  | .shli k f => Sys2Proof.Machine.execShli k f s
  | .shrli k f => Sys2Proof.Machine.execShrli k f s
  | .shrai k f => Sys2Proof.Machine.execShrai k f s
  | .slti k f => Sys2Proof.Machine.execSlti k f s
  | .lil k f => Sys2Proof.Machine.execLil k f s
  | .lih k f => Sys2Proof.Machine.execLih k f s
  | .b k f => Sys2Proof.Machine.execB k f s
  | .bl k f => Sys2Proof.Machine.execBl k f s
  | .bx k f => Sys2Proof.Machine.execBx k f s
  | .sld k f => Sys2Proof.Machine.execSld k f s
  | .sst k f => Sys2Proof.Machine.execSst k f s
  | .rld k f => Sys2Proof.Machine.execRld k f s
  | .rst k f => Sys2Proof.Machine.execRst k f s
  | .time k f => Sys2Proof.Machine.execTime k f s
  | .launchAt k f => Sys2Proof.Machine.execLaunchAt k f s
  | .launchRelease k c => Sys2Proof.Machine.execLaunchRelease k c s
  | .endKernel k f => Sys2Proof.Machine.execEndKernel k f s
  | .kernelComplete k c => Sys2Proof.Machine.execKernelComplete k c s
  | .trap k f => Sys2Proof.Machine.execTrap k f s
  | .contextFault k c unit status addr place => Sys2Proof.Machine.execContextFault k c unit status addr place s
  | .bankAccess k bank reqs errs => Sys2Proof.Machine.execBankAccess k bank reqs errs s
  | .correctedWriteback k word => Sys2Proof.Machine.execCorrectedWriteback k word s
  | .spSegWrite a k seg v => Sys2Proof.Machine.execSpSegWrite a k seg v s
  | .count k f => Sys2Proof.Machine.execCount k f s
  | .ccount k f => Sys2Proof.Machine.execCcount k f s
  | .ctflag k f => Sys2Proof.Machine.execCtflag k f s
  | .creditReq k f => Sys2Proof.Machine.execCreditReq k f s
  | .creditRet k f => Sys2Proof.Machine.execCreditRet k f s
  | .creditRequestArrival k m => Sys2Proof.Machine.execCreditRequestArrival k m s
  | .creditReturnArrival k m => Sys2Proof.Machine.execCreditReturnArrival k m s
  | .creditResponse k c xfer word age => Sys2Proof.Machine.execCreditResponse k c xfer word age s
  | .creditTimeout k c xfer => Sys2Proof.Machine.execCreditTimeout k c xfer s
  | .grantLeaseExpiry k tag => Sys2Proof.Machine.execGrantLeaseExpiry k tag s
  | .offer a k c v => Sys2Proof.Machine.execOffer a k c v s
  | .withdraw a k c v => Sys2Proof.Machine.execWithdraw a k c v s
  | .remoteWrite k m => Sys2Proof.Machine.execRemoteWrite k m s
  | .remoteRead k m => Sys2Proof.Machine.execRemoteRead k m s
  | .dget k f => Sys2Proof.Machine.execDget k f s
  | .dput k f => Sys2Proof.Machine.execDput k f s
  | .put k f => Sys2Proof.Machine.execPut k f s
  | .putf k f => Sys2Proof.Machine.execPutf k f s
  | .transferComplete k id resp => Sys2Proof.Machine.execTransferComplete k id resp s
  | .xferTimeout k id => Sys2Proof.Machine.execXferTimeout k id s
  | .putArrival k m => Sys2Proof.Machine.execPutArrival k m s
  | .finalApply k c group => Sys2Proof.Machine.execFinalApply k c group s
  | .groupHoldTimeout k c group => Sys2Proof.Machine.execGroupHoldTimeout k c group s
  | .flush a k c => Sys2Proof.Machine.execFlush a k c s
  | .spPgCfgWrite a k c v => Sys2Proof.Machine.execSpPgCfgWrite a k c v s
  | .fset k f => Sys2Proof.Machine.execFset k f s
  | .fclr k f => Sys2Proof.Machine.execFclr k f s
  | .ftest k f => Sys2Proof.Machine.execFtest k f s
  | .wait k f => Sys2Proof.Machine.execWait k f s
  | .waitSet k c => Sys2Proof.Machine.execWaitSet k c s
  | .waitTimeout k c => Sys2Proof.Machine.execWaitTimeout k c s
  | .flgCtxWrite a k c v => Sys2Proof.Machine.execFlgCtxWrite a k c v s
  | .flgFwSet a k v => Sys2Proof.Machine.execFlgFwSet a k v s
  | .flgFwClr a k v => Sys2Proof.Machine.execFlgFwClr a k v s
  | .beaconSend p => Sys2Proof.Machine.execBeaconSend p s
  | .beaconReceive p m => Sys2Proof.Machine.execBeaconReceive p m s
  | .timedStart k c => Sys2Proof.Machine.execTimedStart k c s
  | .commitAt cmd => Sys2Proof.Machine.execCommitAt cmd s
  | .commitCancel cmd => Sys2Proof.Machine.execCommitCancel cmd s
  | .barrierNotice g step launch => Sys2Proof.Machine.execBarrierNotice g step launch s
  | .barrierTimeout id => Sys2Proof.Machine.execBarrierTimeout id s
  | .chrNowRead a => Sys2Proof.Machine.execChrNowRead a s
  | .ringEnable a fn r v => Sys2Proof.Machine.execRingEnable a fn r v s
  | .ringDisable a fn r v => Sys2Proof.Machine.execRingDisable a fn r v s
  | .submissionDoorbell fn r size v => Sys2Proof.Machine.execSubmissionDoorbell fn r size v s
  | .completionDoorbell fn r size v => Sys2Proof.Machine.execCompletionDoorbell fn r size v s
  | .queueDoorbell fn q size v => Sys2Proof.Machine.execQueueDoorbell fn q size v s
  | .descriptorFetch fn r res => Sys2Proof.Machine.execDescriptorFetch fn r res s
  | .kernelDispatch d => Sys2Proof.Machine.execKernelDispatch d s
  | .descriptorComplete id => Sys2Proof.Machine.execDescriptorComplete id s
  | .chainRead fn r => Sys2Proof.Machine.execChainRead fn r s
  | .bask k f => Sys2Proof.Machine.execBask k f s
  | .qpost k f => Sys2Proof.Machine.execQpost k f s
  | .baskDelivery fn q => Sys2Proof.Machine.execBaskDelivery fn q s
  | .baskTimeout k c => Sys2Proof.Machine.execBaskTimeout k c s
  | .queueDisable a fn q v => Sys2Proof.Machine.execQueueDisable a fn q v s
  | .queueEnable a fn q v => Sys2Proof.Machine.execQueueEnable a fn q v s
  | .lateMessage m => Sys2Proof.Machine.execLateMessage m s
  | .quarantine p => Sys2Proof.Machine.execQuarantine p s
  | .deviceEscalation esc => Sys2Proof.Machine.execDeviceEscalation esc s
  | .linkPhaseTimeout l ph => Sys2Proof.Machine.execLinkPhaseTimeout l ph s
  | .helloReceived l m => Sys2Proof.Machine.execHelloReceived l m s
  | .trainingComplete l lanes => Sys2Proof.Machine.execTrainingComplete l lanes s
  | .partnerAbsent l => Sys2Proof.Machine.execPartnerAbsent l s
  | .trainingRetry l => Sys2Proof.Machine.execTrainingRetry l s
  | .flitReceive l m => Sys2Proof.Machine.execFlitReceive l m s
  | .flitNak l seq => Sys2Proof.Machine.execFlitNak l seq s
  | .linkDown l cause => Sys2Proof.Machine.execLinkDown l cause s
  | .laneDrop l lane => Sys2Proof.Machine.execLaneDrop l lane s
  | .laneDropReceived l kept => Sys2Proof.Machine.execLaneDropReceived l kept s
  | .enable a l => Sys2Proof.Machine.execEnable a l s
  | .disable a l => Sys2Proof.Machine.execDisable a l s
  | .restart a l => Sys2Proof.Machine.execRestart a l s
  | .sleep a l quiet => Sys2Proof.Machine.execSleep a l quiet s
  | .wake a l => Sys2Proof.Machine.execWake a l s
  | .sleepOrderedSet l => Sys2Proof.Machine.execSleepOrderedSet l s
  | .wakeDetect l => Sys2Proof.Machine.execWakeDetect l s
  | .packetRoute m => Sys2Proof.Machine.execPacketRoute m s
  | .transitForward p m => Sys2Proof.Machine.execTransitForward p m s
  | .portHoldExpiry p => Sys2Proof.Machine.execPortHoldExpiry p s
  | .compatWrite p addr data => Sys2Proof.Machine.execCompatWrite p addr data s
  | .compatGroupEnd p w => Sys2Proof.Machine.execCompatGroupEnd p w s
  | .lfChDb a ch v => Sys2Proof.Machine.execLfChDb a ch v s
  | .lfDescriptorStart ch => Sys2Proof.Machine.execLfDescriptorStart ch s
  | .lfStartPoll ch => Sys2Proof.Machine.execLfStartPoll ch s
  | .lfComplete ch => Sys2Proof.Machine.execLfComplete ch s
  | .lfWindowOpen ch => Sys2Proof.Machine.execLfWindowOpen ch s
  | .lfWindowClose ch => Sys2Proof.Machine.execLfWindowClose ch s
  | .lfWindowTimeout ch => Sys2Proof.Machine.execLfWindowTimeout ch s
  | .lfMessage m => Sys2Proof.Machine.execLfMessage m s
  | .lfHeartbeat g => Sys2Proof.Machine.execLfHeartbeat g s
  | .lfHeartbeatLoss g next => Sys2Proof.Machine.execLfHeartbeatLoss g next s
  | .reformNotice g m => Sys2Proof.Machine.execReformNotice g m s
  | .reformSwap g => Sys2Proof.Machine.execReformSwap g s
  | .resume a ch => Sys2Proof.Machine.execResume a ch s
  | .lfChannelEnable a ch v => Sys2Proof.Machine.execLfChannelEnable a ch v s
  | .lfChannelDisable a ch v => Sys2Proof.Machine.execLfChannelDisable a ch v s
  | .lfBarrierSet cmd => Sys2Proof.Machine.execLfBarrierSet cmd s
  | .hbmRead addr len errs => Sys2Proof.Machine.execHbmRead addr len errs s
  | .hbmWrite addr data => Sys2Proof.Machine.execHbmWrite addr data s
  | .hbmCorrectedWriteback block => Sys2Proof.Machine.execHbmCorrectedWriteback block s
  | .fill cmd => Sys2Proof.Machine.execFill cmd s
  | .fillComplete fn => Sys2Proof.Machine.execFillComplete fn s
  | .bucketLeak bk => Sys2Proof.Machine.execBucketLeak bk s
  | .bucketOverflowInterrupt bk => Sys2Proof.Machine.execBucketOverflowInterrupt bk s
  | .scrubRead pc e => Sys2Proof.Machine.execScrubRead pc e s
  | .pprRepair st => Sys2Proof.Machine.execPprRepair st s
  | .stackOffline st selfTest => Sys2Proof.Machine.execStackOffline st selfTest s
  | .barHostRead fn bar off len => Sys2Proof.Machine.execBarHostRead fn bar off len s
  | .barHostWrite fn bar off data => Sys2Proof.Machine.execBarHostWrite fn bar off data s
  | .partitionCreate cmd => Sys2Proof.Machine.execPartitionCreate cmd s
  | .partitionDestroy cmd => Sys2Proof.Machine.execPartitionDestroy cmd s
  | .inval cmd => Sys2Proof.Machine.execInval cmd s
  | .invalFence p => Sys2Proof.Machine.execInvalFence p s
  | .invalComplete p => Sys2Proof.Machine.execInvalComplete p s
  | .pageWalk u p va wr => Sys2Proof.Machine.execPageWalk u p va wr s
  | .sliceEnd k => Sys2Proof.Machine.execSliceEnd k s
  | .contextSwitch k c => Sys2Proof.Machine.execContextSwitch k c s
  | .sliceOverrun k => Sys2Proof.Machine.execSliceOverrun k s
  | .mbxPost fn size v => Sys2Proof.Machine.execMbxPost fn size v s
  | .mbxTake fn => Sys2Proof.Machine.execMbxTake fn s
  | .mbxAckRead fn => Sys2Proof.Machine.execMbxAckRead fn s
  | .mbxNrHeadWrite fn v => Sys2Proof.Machine.execMbxNrHeadWrite fn v s
  | .nopCommand cmd => Sys2Proof.Machine.execNopCommand cmd s
  | .logRead cmd => Sys2Proof.Machine.execLogRead cmd s
  | .traceSet cmd => Sys2Proof.Machine.execTraceSet cmd s
  | .dumpRead cmd => Sys2Proof.Machine.execDumpRead cmd s
  | .dumpClear cmd => Sys2Proof.Machine.execDumpClear cmd s
  | .internalMailboxPost src dst msg => Sys2Proof.Machine.execInternalMailboxPost src dst msg s
  | .regionFault x write addr => Sys2Proof.Machine.execRegionFault x write addr s
  | .watchdogExpiry x => Sys2Proof.Machine.execWatchdogExpiry x s
  | .fwKick a x => Sys2Proof.Machine.execFwKick a x s
  | .processorRestartTimeout x => Sys2Proof.Machine.execProcessorRestartTimeout x s
  | .spdmRequest req => Sys2Proof.Machine.execSpdmRequest req s
  | .gatedEntry p => Sys2Proof.Machine.execGatedEntry p s
  | .gatedExit p => Sys2Proof.Machine.execGatedExit p s
  | .retainAccessWake d => Sys2Proof.Machine.execRetainAccessWake d s
  | .pwrAsleepRefusal d m => Sys2Proof.Machine.execPwrAsleepRefusal d m s
  | .pwrSleepReq a v => Sys2Proof.Machine.execPwrSleepReq a v s
  | .sleepMemberCheck inp => Sys2Proof.Machine.execSleepMemberCheck inp s
  | .sleepEntryEnd d => Sys2Proof.Machine.execSleepEntryEnd d s
  | .sleepExitEnd d => Sys2Proof.Machine.execSleepExitEnd d s
  | .domainWake d src => Sys2Proof.Machine.execDomainWake d src s
  | .cclkChange d mhz => Sys2Proof.Machine.execCclkChange d mhz s
  | .currentLoop d amps => Sys2Proof.Machine.execCurrentLoop d amps s
  | .temperatureLoop d tj => Sys2Proof.Machine.execTemperatureLoop d tj s
  | .hbmTemperatureLoop st t => Sys2Proof.Machine.execHbmTemperatureLoop st t s
  | .powerLoop watts => Sys2Proof.Machine.execPowerLoop watts s
  | .pwrTinWrite a v => Sys2Proof.Machine.execPwrTinWrite a v s
  | .bringUp inp => Sys2Proof.Machine.execBringUp inp s
  | .warmReset inp => Sys2Proof.Machine.execWarmReset inp s
  | .shedBegin cmd => Sys2Proof.Machine.execShedBegin cmd s
  | .shedDownloadComplete res flashOk => Sys2Proof.Machine.execShedDownloadComplete res flashOk s
  | .shedVerify cmd chk => Sys2Proof.Machine.execShedVerify cmd chk s
  | .shedActivate cmd swap => Sys2Proof.Machine.execShedActivate cmd swap s
  | .shedConfirm cmd => Sys2Proof.Machine.execShedConfirm cmd s
  | .shedAbort cmd => Sys2Proof.Machine.execShedAbort cmd s
  | .retirePosition p testOk => Sys2Proof.Machine.execRetirePosition p testOk s
  | .slotUnbind p => Sys2Proof.Machine.execSlotUnbind p s
  | .scratchpadRowRepair p => Sys2Proof.Machine.execScratchpadRowRepair p s
  | .syncEdge inst => Sys2Proof.Machine.execSyncEdge inst s
  | .regRead addr => Sys2Proof.Machine.execRegRead addr s
  | .regWrite addr v => Sys2Proof.Machine.execRegWrite addr v s
  | .flashRead place len => Sys2Proof.Machine.execFlashRead place len s
  | .flashErase place => Sys2Proof.Machine.execFlashErase place s
  | .flashProgram place data => Sys2Proof.Machine.execFlashProgram place data s
  | .arrivalMessage g member step => Sys2Proof.Machine.execArrivalMessage g member step s
  | .lossOfSignal l => Sys2Proof.Machine.execLossOfSignal l s
  | .processorReachesRun x => Sys2Proof.Machine.execProcessorReachesRun x s
  | .vfEnable num => Sys2Proof.Machine.execVfEnable num s
  | .thermalTrip sensor => Sys2Proof.Machine.execThermalTrip sensor s
  | .lnkclkLost bank => Sys2Proof.Machine.execLnkclkLost bank s
  | .avsRetry d => Sys2Proof.Machine.execAvsRetry d s
  | .railOutOfRange d => Sys2Proof.Machine.execRailOutOfRange d s
  | .jtagInstruction x => Sys2Proof.Machine.execJtagInstruction x s
  | .pllLockLoss die mclk => Sys2Proof.Machine.execPllLockLoss die mclk s
  | .lnkRefclkReturn bank => Sys2Proof.Machine.execLnkRefclkReturn bank s
  | .railNormalControl d => Sys2Proof.Machine.execRailNormalControl d s
  | .beaconLoss => Sys2Proof.Machine.execBeaconLoss s
  | .holdoverExpiry => Sys2Proof.Machine.execHoldoverExpiry s
  | .commitApply => Sys2Proof.Machine.execCommitApply s
  | .tinStale => Sys2Proof.Machine.execTinStale s
  | .shedConfirmTimeout => Sys2Proof.Machine.execShedConfirmTimeout s
  | .powerOnReset => Sys2Proof.Machine.execPowerOnReset s
  | .coldReset => Sys2Proof.Machine.execColdReset s
  | .pcieReset => Sys2Proof.Machine.execPcieReset s
  | .sysclkLost => Sys2Proof.Machine.execSysclkLost s
  | .peclkLost => Sys2Proof.Machine.execPeclkLost s
  | .syncTimeout => Sys2Proof.Machine.execSyncTimeout s
  | .pwrCommit => Sys2Proof.Machine.execPwrCommit s
  | .sidebandResultRead => Sys2Proof.Machine.execSidebandResultRead s
  | .smbusClockTimeout => Sys2Proof.Machine.execSmbusClockTimeout s
  | .regErrCapture => Sys2Proof.Machine.execRegErrCapture s

end Sys2Proof.Machine
end

