-- ==== Sys2Proof/Safety.lean ====
section
/-!
DEFINITION. The terms that claims are stated in: the canonical form that every step keeps, when an instruction can issue, and
what an instruction that issues leaves alone.
-/

namespace Sys2Proof.Machine

/-! ## The canonical form -/

/-- Every addressed memory is in its canonical form: the scratchpad of each position, and HBM over its fills. -/
def Memory.wf (s : State) : Bool :=
  s.posns.all (fun e => Sparse.wf (fun _ => 0#8) e.2.pad.bytes) && Sparse.wf (hbmDefault s.variant s.hbm) s.hbm.bytes

/-- The register file and the memories are in canonical form. -/
def State.canonical (s : State) : Prop := Sparse.wf (regReset s.variant) s.regs = true ∧ Memory.wf s = true

/-! ## Issue -/

/-- The running context of core `k`. -/
def State.running (s : State) (k : Nat) : CtxId := (s.core k).run

/-- The PC of core `k`'s running context. -/
def State.runPc (s : State) (k : Nat) : Nat := s.pc k (s.running k).val

/-- A scalar register of core `k`'s running context. -/
def State.runReg (s : State) (k i : Nat) : Word64 := s.sreg k (s.running k).val i

/-- The state in which core `k` looks at the instruction at its PC: its row is in the fetch buffer. -/
def State.fetched (s : State) (k : Nat) : State := s.withRow k (s.running k) (s.runPc k)

/-- The state in which the instruction at the PC of core `k` issues: its row is in the fetch buffer, a context that waited
under R155 is in RUN again, and its kernel has begun (R172, R292). -/
def State.atIssue (s : State) (k : Nat) : State := ((s.fetched k).unstalled k (s.running k)).firstIssue k (s.running k)

/-- The instruction at the PC of core `k` can issue, and waits for none of the scalar registers `rs` (R153, R155, R159): the
core is bound and awake, its context is in RUN, the PC names an instruction of the window, its row was read without a
failure, and no register of `rs` has a result to come. -/
def State.ready (s : State) (k : Nat) (rs : List Nat) : Prop :=
  s.canIssue k = true ∧ s.runPc k % 8 = 0 ∧ s.runPc k ≤ 0x2F_FFF8 ∧
    (s.fetched k).rowStatus k (s.running k) (s.runPc k) = 0 ∧
    ∀ r ∈ rs, r ∉ ((s.fetched k).ctx k (s.running k).val).busy

/-- What an instruction that issues on core `k` leaves as it was, from the state `s` in which it issues to the state `t`
after it: every register but the PC, the issue counter and those of `regs`; every scalar register but `rd` of the running
context; every queue, flag and memory. -/
structure ScalarFrame (s t : State) (k rd : Nat) (regs : List Nat) : Prop where
  regs : ∀ a, a ≠ R.SEQ_PC k (s.running k).val → a ≠ R.SEQ_ISSUE_CNT k → a ∉ regs → t.reg a = s.reg a
  sregs : ∀ j c i, ¬ (j = k ∧ c = (s.running k).val ∧ i = rd) → t.sreg j c i = s.sreg j c i
  memory : t.posns = s.posns ∧ t.hbm = s.hbm
  queues : ∀ j, (t.core j).mq = (s.core j).mq ∧ (t.core j).vq = (s.core j).vq ∧ (t.core j).dq = (s.core j).dq ∧
    (t.core j).acc = (s.core j).acc ∧ (t.core j).vregs = (s.core j).vregs ∧ (t.core j).run = (s.core j).run
  rest : t.fe = s.fe ∧ t.fw = s.fw ∧ t.sys = s.sys ∧ t.chr = s.chr ∧ t.net = s.net ∧ t.pending = s.pending ∧
    t.variant = s.variant

/-- An instruction of core `k` has issued from `s`, with `v` its result for scalar register `rd` and `pc` the next PC: s0
stays zero (R151), the instruction is counted, and everything else is as it was. -/
structure ScalarResult (s t : State) (k rd : Nat) (v : Word64) (pc : Nat) : Prop where
  result : t.sreg k (s.running k).val rd = if rd = 0 then 0 else v
  pc : t.runPc k = pc
  counted : t.reg (R.SEQ_ISSUE_CNT k) = s.reg (R.SEQ_ISSUE_CNT k) + 1
  frame : ScalarFrame s t k rd []

/-- An instruction of core `k` has issued from `s` to `t` without a result in a scalar register: the PC moves to the next
instruction, the instruction is counted, and no scalar register, no memory and no register but those of `regs` changes. -/
structure Advanced (s t : State) (k : Nat) (regs : List Nat) : Prop where
  pc : t.runPc k = s.runPc k + 8
  counted : t.reg (R.SEQ_ISSUE_CNT k) = s.reg (R.SEQ_ISSUE_CNT k) + 1
  regs : ∀ a, a ≠ R.SEQ_PC k (s.running k).val → a ≠ R.SEQ_ISSUE_CNT k → a ∉ regs → t.reg a = s.reg a
  sregs : ∀ j c i, t.sreg j c i = s.sreg j c i
  memory : t.posns = s.posns ∧ t.hbm = s.hbm

/-! ## Registers -/

/-- Every register but those of `l` reads as before. -/
def State.regsBut (s t : State) (l : List Nat) : Prop := ∀ b, b ∉ l → t.reg b = s.reg b

/-- No byte of a scratchpad or of HBM has changed, nor anything else that the positions and HBM hold. -/
def State.sameMem (s t : State) : Prop := t.posns = s.posns ∧ t.hbm = s.hbm

/-- A write of `v` by agent `a` to the register at `addr` takes effect: R38 lets it through, its slot's window is not held
(R530), its unit is present (R10), the register has the width of the access and no reserved bit of it is set (R15), and no
pending commit locks it (R272). -/
structure State.accepts (s : State) (a : Agent) (addr : Nat) (wide : Bool) (v : Word64) : Prop where
  check : s.regCheck a addr (if wide then 8 else 4) (some v) = 0
  awake : s.regHeld addr = false
  present : ∃ b o, blockOf addr = some (b, o) ∧ s.unitAbsent b o = false
  layout : ∃ i, regInfo s.variant addr = some i ∧ i.wide = wide ∧
    (if wide then v else v &&& 0xFFFF_FFFF) &&& ~~~ BitVec.ofNat 64 i.mask = 0
  whole : wide = false → addr % 8 = 4 → wideAt s.variant (addr - 4) = false
  unlocked : s.shadowLocked addr = false

/-- The register at `addr`, laid out as `i`, has taken a write of `v` by its access codes (R13): RW fields hold what was
written, W1C bits written as 1 are cleared, and every other bit is as it was. -/
def State.wrote (s t : State) (addr : Nat) (i : RegInfo) (v : Word64) : Prop :=
  ∀ j, j < (if i.wide then 64 else 32) → (t.reg addr).getLsbD j =
    if (i.accMask .rw).testBit j then v.getLsbD j
    else if (i.accMask .w1c).testBit j then (s.reg addr).getLsbD j && !v.getLsbD j
    else (s.reg addr).getLsbD j

/-- A read by agent `a` of the register at `addr` reaches the register, as `State.accepts` says of a write. -/
structure State.answers (s : State) (a : Agent) (addr : Nat) (wide : Bool) : Prop where
  check : s.regCheck a addr (if wide then 8 else 4) none = 0
  awake : s.regHeld addr = false
  layout : ∃ i, regInfo s.variant addr = some i ∧ i.wide = wide
  whole : wide = false → addr % 8 = 4 → wideAt s.variant (addr - 4) = false

/-! ## Matrix work -/

/-- Stream the vectors `vs` into tile `t`, the first being its `j`-th (R79, R96). -/
def CoreState.streamed (x : CoreState) (base : Nat) (t : Tile) (c : List Nat → Nat → Num) (j : Nat) : List (List Nat) → CoreState × Tile
  | [] => (x, t)
  | v :: vs =>
    let r := x.accVector base t j (c v)
    r.1.streamed base r.2 c (j + 1) vs

/-! ## Scratchpad rows -/

/-- Context `c` of core `k` can read `len` bytes at `off` of its window, and no word of them has an error for its decoder to
correct: a read of them changes nothing (R181, R185). -/
def State.readsClean (s : State) (k c off len : Nat) : Prop :=
  s.owns k c off len = true ∧ ∃ p, s.phys k = some p ∧
    ∀ w ∈ wordsOf off len, (s.pos p).pad.resolve w = none ∧ Sparse.get (fun _ => Err.ok) (s.pos p).pad.errs w = .ok

/-- The bytes at `off` of core `k`'s window. -/
def State.winBytes (s : State) (k off len : Nat) : List Byte := (List.range len).map (fun i => (s.padOf k).byte (off + i))

/-- A write of `len` bytes at `off` of position `q` meets no word that refuses a merge (R186): every word that it covers in
part reads without a failure or is unwritten. -/
def State.mergeable (s : State) (q off len : Nat) : Prop :=
  ∀ w ∈ wordsOf off len, (s.pos q).pad.resolve w = none ∨ (s.pos q).pad.resolve w = some 0x0702 ∨
    (off ≤ 8 * w ∧ 8 * w + 8 ≤ off + len)

/-- The bytes `d` have been stored at `off` of position `q`, and no other byte of any scratchpad has changed but the rest of a
word that was unwritten, which reads as zero (R184). -/
structure State.stored (s t : State) (q off : Nat) (d : List TByte) : Prop where
  bytes : ∀ i x, d[i]? = some (some x) → (t.pos q).pad.byte (off + i) = x
  rest : ∀ p o, (p ≠ q ∨ o < off ∨ off + d.length ≤ o) → (t.pos p).pad.byte o =
    if p = q ∧ o / 8 ∈ wordsOf off d.length ∧ (s.pos q).pad.resolve (o / 8) = some 0x0702 then 0 else (s.pos p).pad.byte o

/-! ## Faults (R161) -/

/-- Context `c` of core `k` has taken the fault that `r` reports, from `s` to `t`: it has stopped with its PC at the cause, its
partition holds the first cause reported, later work of the context has left the queues, and no scalar register changed. -/
structure FaultTaken (s t : State) (k : Nat) (c : CtxId) (r : Report) : Prop where
  stopped : t.seqState k c.val = 6
  pc : t.pc k c.val = r.pc % 2 ^ 22
  cause : ∀ p, s.partOf k c.val = some p →
    (t.part p).quar = (match (s.part p).quar with
      | some q => some q
      | none => some (s.causeOf p k c.val r))
  later : (∀ e ∈ (t.core k).mq, e.ctx = c → e.seq ≤ r.seq) ∧ (∀ e ∈ (t.core k).vq, e.ctx = c → e.seq ≤ r.seq) ∧
    (∀ e ∈ (t.core k).dq, e.ctx = c → e.seq ≤ r.seq)
  sregs : ∀ j d i, t.sreg j d i = s.sreg j d i
  memory : t.posns = s.posns ∧ t.hbm = s.hbm

/-! ## Commands of mailboxes (R434 to R441) -/

/-- Firmware has the command `cmd` of code `code` before it, with `args` its argument bytes: it was taken from its message
slot and its scheduler core runs, or a firmware processor issues it itself. -/
def State.commands (s : State) (code : Nat) (cmd : Cmd) (args : List Byte) : Prop :=
  match cmd.slot with
  | none => args = cmd.args
  | some i => s.fwReady = true ∧ ∃ j, s.fw.journal.find?
      (fun (j : Journal) => j.func == cmd.func.val && j.slot == i.val && !j.acc && j.code == code) = some j ∧ j.args = args

/-- The STATE byte of the command's message (R434): 1 accepted, 2 done. -/
def State.msgState (t : State) (cmd : Cmd) (x : Nat) : Prop :=
  ∀ i, cmd.slot = some i → Sparse.get (fun _ => 0#8) (t.fn cmd.func.val).page (0x407 + 64 * i.val) = BitVec.ofNat 8 x

end Sys2Proof.Machine
end

