-- ==== Sys2Proof/Certificates/Slice0/Obligations.lean ====
section
/-!
DEFINITION. What is claimed of the machine.
-/

open Sys2Proof Sys2Proof.Machine

/-! ## The machine -/

/-- A step with a command at the front of the queue is that command's meaning on the rest of the queue. -/
def Obligations.StepRunsFrontCommand : Prop :=
  ∀ (c : Instr) (s : State), step { s with pending := c :: s.pending } = exec c s

/-! ## The sequencer (chapter 06) -/

/-- The three-register instructions write their results (R158, R162): wrapping sums, differences and products, bitwise
operations, shifts by RB[5:0], signed and unsigned extremes and comparisons. The instructions with an immediate write their
results (R158, R162): IMM[31:0] is sign-extended for ADDI and SLTI and zero-extended for the bitwise operations, and a shift
takes IMM[5:0]. -/
def Obligations.Arithmetic : Prop :=
  (∀ (k : CoreId) (f : IBits) (s : State), s.ready k.val [fRA f, fRB f, fRD f] → bits f 40 0 = 0 →
    let a := s.runReg k.val (fRA f)
    let b := s.runReg k.val (fRB f)
    ∀ p ∈ [(Instr.add k f, a + b), (Instr.sub k f, a - b), (Instr.and k f, a &&& b), (Instr.or k f, a ||| b),
        (Instr.xor k f, a ^^^ b), (Instr.shl k f, a <<< (b.toNat % 64)), (Instr.shrl k f, a >>> (b.toNat % 64)),
        (Instr.shra k f, a.sshiftRight (b.toNat % 64)), (Instr.mul k f, a * b), (Instr.min k f, if a.slt b then a else b),
        (Instr.max k f, if a.slt b then b else a), (Instr.minu k f, if a < b then a else b),
        (Instr.maxu k f, if a < b then b else a), (Instr.slt k f, if a.slt b then 1 else 0),
        (Instr.sltu k f, if a < b then 1 else 0)],
      ∃ t, exec p.1 s = .next t ∧ ScalarResult (s.atIssue k.val) t k.val (fRD f) p.2 (s.runPc k.val + 8)) ∧
  ∀ (k : CoreId) (f : IBits) (s : State), s.ready k.val [fRA f, fRD f] → bits f 45 32 = 0 →
    let a := s.runReg k.val (fRA f)
    let i : Word64 := (f.truncate 32).signExtend 64
    let z : Word64 := (f.truncate 32).zeroExtend 64
    let n := f.toNat % 64
    (∀ p ∈ [(Instr.addi k f, a + i), (Instr.andi k f, a &&& z), (Instr.ori k f, a ||| z), (Instr.xori k f, a ^^^ z),
          (Instr.slti k f, if a.slt i then 1 else 0)],
        ∃ t, exec p.1 s = .next t ∧ ScalarResult (s.atIssue k.val) t k.val (fRD f) p.2 (s.runPc k.val + 8)) ∧
      (bits f 31 6 = 0 →
        ∀ p ∈ [(Instr.shli k f, a <<< n), (Instr.shrli k f, a >>> n), (Instr.shrai k f, a.sshiftRight n)],
          ∃ t, exec p.1 s = .next t ∧ ScalarResult (s.atIssue k.val) t k.val (fRD f) p.2 (s.runPc k.val + 8))

/-- LIL takes a sign-extended 48-bit constant, LIH replaces bits [63:48], TIME takes whole nanoseconds of the partition's
view of Chorus or the fraction, and NOP does nothing but advance (R158, R160, R167). -/
def Obligations.ConstantsTimeAndNop : Prop :=
  ∀ (k : CoreId) (f : IBits) (s : State), s.ready k.val [fRD f] →
    let u := s.atIssue k.val
    (bits f 50 48 = 0 → ∃ t, exec (.lil k f) s = .next t ∧
        ScalarResult u t k.val (fRD f) ((f.truncate 48).signExtend 64) (s.runPc k.val + 8)) ∧
      (bits f 50 16 = 0 → ∃ t, exec (.lih k f) s = .next t ∧
        ScalarResult u t k.val (fRD f) (f.truncate 16 ++ (s.runReg k.val (fRD f)).truncate 48) (s.runPc k.val + 8)) ∧
      (bits f 50 46 = 0 → bits f 44 0 = 0 → ∃ t, exec (.time k f) s = .next t ∧
        ScalarResult u t k.val (fRD f)
          (if bit f 45 then BitVec.ofNat 64 (u.chorus.toNat % 256)
           else BitVec.ofNat 64 (u.viewNs (u.partOf k.val (s.running k.val).val))) (s.runPc k.val + 8)) ∧
      (f = 0 → ∃ t, exec (.nop k f) s = .next t ∧ ScalarResult u t k.val 0 0 (s.runPc k.val + 8))

/-- B goes to its target when its condition holds and to the next instruction otherwise, and BL and BX go to theirs with PC + 8
in RD; BX reads RA before RD is written (R158, R165). -/
def Obligations.Branches : Prop :=
  ∀ (k : CoreId) (f : IBits) (s : State),
    let t0 := bits f 21 0
    let ra := s.runReg k.val (bits f 46 42)
    let link : Word64 := BitVec.ofNat 64 (s.runPc k.val + 8)
    let u := s.atIssue k.val
    (s.ready k.val [bits f 46 42, bits f 41 37] → branchUnused f = false → bits f 50 47 < 13 → t0 % 8 = 0 →
        t0 ≤ 0x2F_FFF8 → ∃ t, exec (.b k f) s = .next t ∧
          ScalarResult u t k.val 0 0 (if branchTaken (bits f 50 47) ra (s.runReg k.val (bits f 41 37)) (bits f 36 31) then t0
            else s.runPc k.val + 8)) ∧
      (s.ready k.val [fRD f] → bits f 50 22 = 0 → t0 % 8 = 0 → t0 ≤ 0x2F_FFF8 →
        ∃ t, exec (.bl k f) s = .next t ∧ ScalarResult u t k.val (fRD f) link t0) ∧
      (s.ready k.val [fRD f, bits f 46 42] → bits f 50 47 = 0 → bits f 41 0 = 0 → ra.toNat % 8 = 0 →
        ra.toNat ≤ 0x2F_FFF8 → ∃ t, exec (.bx k f) s = .next t ∧ ScalarResult u t k.val (fRD f) link ra.toNat)

/-- SLD reads its bytes, least significant first, zero-extended or sign-extended, when the range is the context's and every
word of it can be read (R163, R185); what it records of the read lies outside the bytes of every scratchpad. SST puts the low
bytes of RD, least significant first, at its address and leaves every other byte of every scratchpad, all of HBM and every
scalar register as they were, but that the rest of a word that was unwritten reads as zero (R163, R184); rows of the fetch
buffer that it writes are dropped (R154). -/
def Obligations.ScalarLoadAndStore : Prop :=
  (∀ (k : CoreId) (f : IBits) (s : State), s.ready k.val [fRD f, fRA f] →
    let u := s.atIssue k.val
    let a := u.effAddr k.val (s.running k.val).val f
    let n := fSize f
    bits f 42 32 = 0 → ¬ (bit f 43 = true ∧ n = 8) → a % n = 0 → a + n ≤ padSize →
    u.owns k.val (s.running k.val).val a n = true → (u.padOf k.val).readStatus a n = 0 →
    let x := leNat ((List.range n).map (fun i => (u.padOf k.val).byte (a + i)))
    ∃ t, exec (.sld k f) s = .next t ∧
      t.sreg k.val (s.running k.val).val (fRD f) =
        (if fRD f = 0 then 0 else if bit f 43 then BitVec.ofInt 64 (signed (8 * n) x) else BitVec.ofNat 64 x) ∧
      (∀ j c i, ¬ (j = k.val ∧ c = (s.running k.val).val ∧ i = fRD f) → t.sreg j c i = s.sreg j c i) ∧
      t.runPc k.val = s.runPc k.val + 8 ∧ (∀ p o, (t.pos p).pad.byte o = (u.pos p).pad.byte o) ∧ t.hbm = u.hbm) ∧
  ∀ (k : CoreId) (f : IBits) (s : State) (q : Nat), s.ready k.val [fRD f, fRA f] →
    let u := s.atIssue k.val
    let a := u.effAddr k.val (s.running k.val).val f
    let n := fSize f
    let r := (u.pos q).pad.resolve (a / 8)
    u.phys k.val = some q → bits f 43 32 = 0 → a % n = 0 → a + n ≤ padSize →
    u.owns k.val (s.running k.val).val a n = true → (n = 8 ∨ r = none ∨ r = some 0x0702) →
    ∃ t, exec (.sst k f) s = .next t ∧
      (∀ i, i < n → (t.pos q).pad.byte (a + i) = BitVec.ofNat 8 ((s.runReg k.val (fRD f)).toNat / 2 ^ (8 * i))) ∧
      (∀ p o, ¬ (p = q ∧ a ≤ o ∧ o < a + n) → (t.pos p).pad.byte o =
        if p = q ∧ o / 8 = a / 8 ∧ r = some 0x0702 then 0 else (u.pos p).pad.byte o) ∧ t.hbm = u.hbm ∧
      (∀ j c i, t.sreg j c i = s.sreg j c i) ∧ t.runPc k.val = s.runPc k.val + 8 ∧
      (∀ x ∈ (t.ctx k.val (s.running k.val).val).rows, overlaps (64 * x.row) 64 a n = false)

/-- LAUNCH_AT before its target leaves the context TIMED with the target and RD; at or after it, it puts the whole nanoseconds
of the partition's view into RD at once, and marks and counts a late release (R168, R169). LAUNCH_RELEASE returns the running
context to RUN once Chorus has reached the target and no relock of its die is under way, with RD written, and counts it late
past the target by more than 2 ns, or where the context did not run, or its die relocked, at the target (R168, R169, R256,
R258). -/
def Obligations.LaunchAtAndRelease : Prop :=
  (∀ (k : CoreId) (f : IBits) (s : State), s.ready k.val [fRD f, fRA f] → bits f 37 0 = 0 →
    let c := (s.running k.val).val
    let u := s.atIssue k.val
    let t0 := u.launchTarget k.val c f
    t0 ≤ u.chorus.toNat + 2 ^ 40 →
    ∃ t, exec (.launchAt k f) s = .next t ∧ t.runPc k.val = s.runPc k.val + 8 ∧
      (u.chorus.toNat < t0 → t.seqState k.val c = 4 ∧ (t.ctx k.val c).launch = some ⟨BitVec.ofNat 72 t0, fRD f, false⟩ ∧
        ∀ j d i, t.sreg j d i = s.sreg j d i) ∧
      (t0 ≤ u.chorus.toNat → t.seqState k.val c = u.seqState k.val c ∧
        (fRD f ≠ 0 → t.sreg k.val c (fRD f) = BitVec.ofNat 64 (u.viewNs (u.partOf k.val c))) ∧
        (∀ j d i, ¬ (j = k.val ∧ d = c ∧ i = fRD f) → t.sreg j d i = s.sreg j d i)) ∧
      (t0 < u.chorus.toNat → t.bitOf (R.SEQ_STATE k.val c) 8 = true ∧
        t.fld (R.SEQ_LATE_CNT k.val c) 31 0 = min (u.fld (R.SEQ_LATE_CNT k.val c) 31 0 + 1) (2 ^ 32 - 1))) ∧
  ∀ (k : CoreId) (c : CtxId) (s : State) (l : LaunchWait), (s.ctx k.val c.val).launch = some l → l.target ≤ s.chorus →
    s.running k.val = c → s.seqState k.val c.val = 4 → s.relocks (s.coreDie k.val) = false →
    ∃ t, exec (.launchRelease k c) s = .next t ∧ t.seqState k.val c.val = 1 ∧ (t.ctx k.val c.val).launch = none ∧
      (l.rd ≠ 0 → t.sreg k.val c.val l.rd = BitVec.ofNat 64 (s.viewNs (s.partOf k.val c.val))) ∧
      t.fld (R.SEQ_LATE_CNT k.val c.val) 31 0 =
        (if l.late = true ∨ l.target.toNat + 0x200 < s.chorus.toNat then min (s.fld (R.SEQ_LATE_CNT k.val c.val) 31 0 + 1) (2 ^ 32 - 1)
         else s.fld (R.SEQ_LATE_CNT k.val c.val) 31 0) ∧
      t.posns = s.posns ∧ t.hbm = s.hbm

/-- END makes the context ENDING; KERNEL_COMPLETE makes an ENDING context with no work left IDLE, takes its kernel away, and
tells its descriptor, where the kernel's stamp is its partition's EPOCH, that this core has completed (R170, R291, R302). TRAP
faults its context with GS_0606 and its code, and CONTEXT_FAULT with the status, unit and address that a unit reports of an
instruction by its place in program order, for a context that has a kernel and has not faulted; a word with a reserved opcode
that reaches issue faults with the status of its range (R158, R159, R161, R171, R305). -/
def Obligations.KernelEndsAndFaults : Prop :=
  ((∀ (k : CoreId) (s : State), s.ready k.val [] → ∃ t, exec (.endKernel k 0) s = .next t ∧
      t.seqState k.val (s.running k.val).val = 5 ∧ t.runPc k.val = s.runPc k.val + 8 ∧
      ∀ j c i, t.sreg j c i = s.sreg j c i) ∧
    ∀ (k : CoreId) (c : CtxId) (s : State), s.seqState k.val c.val = 5 → (s.core k.val).workLeft c = false →
      ∃ t, exec (.kernelComplete k c) s = .next t ∧ t.seqState k.val c.val = 0 ∧ (t.ctx k.val c.val).kernel = none ∧
        (∀ kn d, (s.ctx k.val c.val).kernel = some kn → (∀ p, s.partOf k.val c.val = some p → kn.epoch = (s.part p).epoch) →
          d ∈ t.fe.descs → d.id = kn.desc → k.val ∉ d.left) ∧
        (∀ j d i, t.sreg j d i = s.sreg j d i) ∧ t.posns = s.posns ∧ t.hbm = s.hbm) ∧
  (∀ (k : CoreId) (f : IBits) (s : State), s.ready k.val [] → bits f 55 16 = 0 →
      let u := s.atIssue k.val
      ∃ t, exec (.trap k f) s = .next t ∧
        FaultTaken u t k.val (s.running k.val)
          { unit := 1, status := 0x0606, seq := (u.core k.val).seqNo, pc := u.runPc k.val, code := bits f 15 0,
            instr := instrWord 0x3B f, addr := 0 }) ∧
    (∀ (k : CoreId) (c : CtxId) (unit : Fin 8) (st : Status) (seq : Nat) (addr : Word64) (s : State),
      s.seqState k.val c.val ≠ 0 → s.seqState k.val c.val ≠ 6 → unit ≠ 0 → st ≠ 0 →
      ∃ t, exec (.contextFault k c unit st addr (.place seq)) s = .next t ∧
        FaultTaken s t k.val c
          { unit := unit.val, status := st, seq := seq, pc := (s.instrAt k.val c seq).1, instr := (s.instrAt k.val c seq).2,
            addr := addr.toNat }) ∧
    ∀ (k : CoreId) (c : CtxId) (unit : Fin 8) (x : Status) (addr w : Word64) (st : Status) (s : State), s.ready k.val [] →
      opcodeStatus (bits w 63 56) = some st →
      let u := s.atIssue k.val
      ∃ t, exec (.contextFault k c unit x addr (.word w)) s = .next t ∧
        FaultTaken u t k.val (s.running k.val)
          { unit := opcodeUnit (bits w 63 56), status := st, seq := (u.core k.val).seqNo, pc := u.runPc k.val, instr := w,
            addr := 0 }

/-- INSTRUCTION_FETCH of a row of the window puts the row into the fetch buffer of the running context, with its 64 bytes when
the context owns it and every word can be read, and held as failed with GS_0102 when it does not; at most four rows stay, the
newest first (R151, R153). An instruction whose row is in the buffer is looked at without any change; what the look does before
the instruction issues is to return a stalled context to RUN and to tell its descriptor of the kernel's first issue (R155, R172,
R260, R292). One that names a scalar register whose result is still to come leaves its context in STALL and does nothing else
(R155, R172). -/
def Obligations.InstructionFetch : Prop :=
  (∀ (k : CoreId) (s : State),
    let c := (s.running k.val).val
    let v := s.fetched k.val
    let u := s.atIssue k.val
    ((∃ x ∈ (s.ctx k.val c).rows, x.row = s.runPc k.val / 64) → v = s) ∧ u.seqState k.val c ≠ 2 ∧
      (∀ a, a ≠ R.SEQ_STATE k.val c → a ≠ R.CHR_LATE_CNT → u.reg a = v.reg a) ∧ u.posns = v.posns ∧ u.hbm = v.hbm ∧
      (∀ j d i, u.sreg j d i = s.sreg j d i) ∧
      ∀ j, (u.core j).mq = (s.core j).mq ∧ (u.core j).vq = (s.core j).vq ∧ (u.core j).dq = (s.core j).dq ∧
        (u.core j).acc = (s.core j).acc ∧ (u.core j).vregs = (s.core j).vregs ∧ (u.core j).run = (s.core j).run) ∧
  (∀ (k : CoreId) (f : IBits) (s : State) (r : Nat), s.ready k.val [] → r ∈ [fRA f, fRB f, fRD f] →
    let c := (s.running k.val).val
    let v := s.fetched k.val
    r ∈ (v.ctx k.val c).busy →
    ∃ t, exec (.add k f) s = .next t ∧ t.seqState k.val c = 2 ∧ t.cores = v.cores ∧ v.regsBut t [R.SEQ_STATE k.val c] ∧
      v.sameMem t) ∧
  ∀ (k : CoreId) (row : BitVec 16) (s : State), (s.phys k.val).isSome = true → row.toNat < 0xC000 →
    let c := (s.running k.val).val
    let a := 64 * row.toNat
    ∃ t r, exec (.instructionFetch k row) s = .next t ∧ (t.ctx k.val c).rows.head? = some r ∧ r.row = row.toNat ∧
      (t.ctx k.val c).rows.length ≤ 4 ∧
      (s.owns k.val c a 64 = false → r.status = 0x0102) ∧
      (s.owns k.val c a 64 = true → (s.padOf k.val).readStatus a 64 = 0 →
        r.status = 0 ∧ r.data = (List.range 64).map (fun i => (s.padOf k.val).byte (a + i))) ∧
      ∀ j d i, t.sreg j d i = s.sreg j d i

/-! ## The matrix array (chapters 03 and 04) -/

/-- MHOLD, MMUL and MDRAIN that pass their checks join the matrix queue with the scalar words copied (R73, R74, R76, R105,
R156): an opening MMUL makes its tile's record, and a drain with KEEP = 0 closes its tile to later instructions (R81, R107). -/
def Obligations.MatrixIssue : Prop :=
  ∀ (k : CoreId) (f : IBits) (s : State),
    let c := s.running k.val
    let u := s.atIssue k.val
    let x := u.core k.val
    (u.core k.val).mq.length < 8 →
    (s.ready k.val [bits f 49 45] →
      let w := s.runReg k.val (bits f 49 45)
      ∀ fmt, Fmt.ofCode (bits f 53 50) = some fmt → matAccepts (bits f 53 50) = true → bits f 31 0 = 0 →
        opReserved w = false → (bits f 44 38 < 64 ∨ bits f 53 50 = 8 ∨ bits f 53 50 = 13) → opBase w % matAlign fmt = 0 →
        opStride w % matAlign fmt = 0 →
        let rs := rowRanges (opBase w) (opStride w) (matBytes fmt (bits f 37 32 + 1)) (bits f 44 38 + 1)
        rowsFit rs = true → u.ownsRows k.val c.val rs = true →
        ∃ t, exec (.mhold k f) s = .next t ∧ Advanced u t k.val [] ∧
          (t.core k.val).mq = x.mq ++ [⟨.mhold, c, x.seqNo, s.runPc k.val, f, w, 0⟩]) ∧
    (s.ready k.val [bits f 47 43, bits f 42 38] →
      let w := s.runReg k.val (bits f 47 43)
      let sc := s.runReg k.val (bits f 42 38)
      ∀ fmt h, Fmt.ofCode (bits f 51 48) = some fmt → matAccepts (bits f 51 48) = true →
        x.heldView (matHbuf f) = some h → bits f 54 53 < 3 → ¬ (bits f 54 53 = 2 ∧ u.variant = .n640) →
        matCombo (bits f 54 53) h.fmt (bits f 51 48) = true → bits f 19 17 = 0 → bits f 3 0 = 0 → opReserved w = false →
        flagUnused f = false → opBase w % matAlign fmt = 0 → opStride w % matAlign fmt = 0 →
        let rs := rowRanges (opBase w) (opStride w) (matBytes fmt h.k) (bits f 27 20 + 1)
        let af := matAccFmt (bits f 54 53) h.fmt
        rowsFit rs = true → u.ownsRows k.val c.val rs = true →
        bits f 37 28 + tileRows (bits f 27 20) af ≤ u.fld (R.MA_CTX_ACC k.val c.val) 26 16 →
        ¬ (af = 14 ∧ (u.fld (R.MA_CTX_ACC k.val c.val) 9 0 + bits f 37 28) % 2 = 1) → u.flagBad k.val c.val f = false →
        (if bit f 52 then ∀ t ∈ x.tiles, t.ctx = c → t.cseq = none →
            tileOverlap t.row t.nvec t.afmt (bits f 37 28) (bits f 27 20) af = false
          else ∃ t, x.openTile c (bits f 37 28) (bits f 27 20) = some t ∧ t.role = h.role ∧ t.w = h.w ∧ t.afmt = af ∧
            t.scales = sc) →
        ∃ t, exec (.mmul k f) s = .next t ∧ Advanced u t k.val [] ∧
          (t.core k.val).mq = x.mq ++ [⟨.mmul, c, x.seqNo, s.runPc k.val, f, w, sc⟩] ∧
          (bit f 52 = true → ∃ r, (t.core k.val).tiles = x.tiles ++ [r] ∧ r.ctx = c ∧ r.row = bits f 37 28 ∧
            r.nvec = bits f 27 20 ∧ r.w = h.w ∧ r.afmt = af ∧ r.scales = sc ∧ (r.s, r.ovf) = scaleProduct sc)) ∧
    (s.ready k.val [bits f 33 29] →
      let w := s.runReg k.val (bits f 33 29)
      let al := if bits f 37 34 = 14 ∨ bit f 27 = true then 8 else 4
      ∀ t0, x.openTile c (bits f 55 46) (bits f 45 38) = some t0 → bits f 26 17 = 0 → bits f 3 0 = 0 →
        opReserved w = false → flagUnused f = false → (bits f 37 34 = 0 ∨ bits f 37 34 = 9 ∨ bits f 37 34 = 14) →
        (t0.afmt = bits f 37 34 ∨ (t0.afmt = 9 ∧ bits f 37 34 = 0)) → opBase w % al = 0 → opStride w % al = 0 →
        rowsFit (drainRanges w t0.w (bits f 45 38) (bits f 37 34) (bit f 27)) = true →
        u.ownsRows k.val c.val (drainRanges w t0.w (bits f 45 38) (bits f 37 34) (bit f 27)) = true →
        bits f 55 46 + tileRows (bits f 45 38) t0.afmt ≤ u.fld (R.MA_CTX_ACC k.val c.val) 26 16 →
        ¬ (t0.afmt = 14 ∧ (u.fld (R.MA_CTX_ACC k.val c.val) 9 0 + bits f 55 46) % 2 = 1) →
        u.flagBad k.val c.val f = false →
        ∃ t, exec (.mdrain k f) s = .next t ∧ Advanced u t k.val [] ∧
          (t.core k.val).mq = x.mq ++ [⟨.mdrain, c, x.seqNo, s.runPc k.val, f, w, 0⟩] ∧
          (bit f 28 = true → (t.core k.val).openTile c (bits f 55 46) (bits f 45 38) = some t0) ∧
          (bit f 28 = false → ∀ t1 ∈ (t.core k.val).tiles, t1.oseq = t0.oseq → t1.cseq = some x.seqNo))

/-- MDISCARD of an open tile whose rows no queued instruction uses closes it at once: its record goes, its flags are merged
into MA_EXC_k, and the accumulator keeps its contents (R77, R80, R101). A word beyond correction among the operands of the
MHOLD that is ready, of as many bits in error as its code detects and does not correct or of an index that differs in as many
as its code detects, faults its context and leaves the held buffer empty (R90, R183, R185). An accumulator word beyond correction
that a vector meets poisons its element, which keeps its value, and sets UE of the tile (R100, R103). -/
def Obligations.MatrixDiscardAndReadFault : Prop :=
  (∀ (k : CoreId) (f : IBits) (s : State) (t0 : Tile), s.ready k.val [] →
    let c := s.running k.val
    let u := s.atIssue k.val
    let x := u.core k.val
    x.mq = [] → x.openTile c (bits f 55 46) (bits f 45 38) = some t0 → bits f 37 0 = 0 → t0.oseq < x.seqNo →
    (∀ t1 ∈ x.tiles, t1.ctx = c → t1.row = bits f 55 46 → t1.nvec = bits f 45 38 → t1.oseq = t0.oseq) →
    ∃ t, exec (.mdiscard k f) s = .next t ∧ t.runPc k.val = s.runPc k.val + 8 ∧ (t.core k.val).mq = [] ∧
      (∀ t1 ∈ (t.core k.val).tiles, t1.oseq ≠ t0.oseq) ∧ (t.core k.val).acc = x.acc ∧
      t.reg (R.MA_EXC k.val c.val) = u.reg (R.MA_EXC k.val c.val) |||
        BitVec.ofNat 64 (t0.sat.toNat + 2 * t0.ovf.toNat + 4 * t0.nan.toNat + 8 * t0.ue.toNat) ∧
      t.posns = u.posns ∧ t.hbm = u.hbm) ∧
  (∀ (k : CoreId) (word : BitVec 19) (e : Upset) (s : State) (m : MatEntry) (q : Nat),
    let code := if s.segClassW k.val (word.toNat / 0x2000) then Code.classW else Code.classA
    (∃ n, (e = .wrong n ∧ code.corrects < n ∧ n ≤ code.detects) ∨ (e = .index n ∧ 0 < n ∧ n ≤ code.index)) →
    (s.core k.val).holdReady = some m → word.toNat ∈ (s.core k.val).operandWords m → s.phys k.val = some q →
    Sparse.get (fun _ => false) (s.pos q).pad.written word.toNat = true → s.seqState k.val m.ctx.val ≠ 0 →
    s.seqState k.val m.ctx.val ≠ 6 →
    ∃ t, exec (.matrixOperandReadFault k word e) s = .next t ∧ t.seqState k.val m.ctx.val = 6 ∧
      (t.core k.val).held (matHbuf m.f) = HeldBuf.empty ∧ (t.core k.val).acc = (s.core k.val).acc ∧
      ∀ a ∈ (t.core k.val).mq, a.seq ≠ m.seq) ∧
  ∀ (k : CoreId) (i : BitVec 16) (s : State) (m : MatEntry) (t0 : Tile) (fmt : Fmt), s.streamReady k.val = some m →
    (s.core k.val).tileFor m.ctx (bits m.f 37 28) (bits m.f 27 20) m.seq = some t0 → Fmt.ofCode (bits m.f 51 48) = some fmt →
    bit m.f 52 = false → bits m.f 27 20 = 0 → (∀ a ∈ (s.core k.val).mq, a.kind ≠ .mdiscard) →
    let x := s.core k.val
    let row := i.toNat / 64
    let col := i.toNat % 64
    s.readsClean k.val m.ctx.val (opBase m.opw) (matBytes fmt (x.held (matHbuf m.f)).k) →
    row = vecRow (s.fld (R.MA_CTX_ACC k.val m.ctx.val) 9 0) t0.row t0.afmt 0 → col < t0.w → x.accPoison row col = false →
    ∃ t, exec (.mmulStream k [(i, .wrong 2)]) s = .next t ∧ (t.core k.val).accPoison row col = true ∧
      (t.core k.val).accWord row col = x.accWord row col ∧ (∀ a ∈ (t.core k.val).mq, a.seq ≠ m.seq) ∧
      ∃ t1 ∈ (t.core k.val).tiles, t1.oseq = t0.oseq ∧ t1.ue = true

/-- MHOLD_LOAD fills the held buffer of the first queued MHOLD with the elements of its rows, row by row, and takes it from
the queue (R65, R72, R75). MMUL_STREAM runs the first queued MMUL that may start: every vector of it adds its contribution to
the tile in turn, an opening one over zeroed columns; it leaves the queue, and MA_ACTIVE_CNT counts a period for each vector
(R79, R81, R89, R96). -/
def Obligations.MatrixLoadsAndStreams : Prop :=
  (∀ (k : CoreId) (s : State) (e : MatEntry) (fmt : Fmt), s.shut k.val = false → (s.core k.val).holdReady = some e →
    Fmt.ofCode (bits e.f 53 50) = some fmt →
    let n := bits e.f 44 38 + 1
    let w := bits e.f 37 32 + 1
    let off := fun j => opBase e.opw + j * opStride e.opw
    (∀ j, j < n → s.readsClean k.val e.ctx.val (off j) (matBytes fmt w)) →
    ∃ t, exec (.mholdLoad k) s = .next t ∧
      (t.core k.val).held (matHbuf e.f) = ⟨true, bit e.f 54, bits e.f 53 50, n, w,
        (List.range n).map (fun j => (List.range w).map (packedAt fmt (s.winBytes k.val (off j) (matBytes fmt w))))⟩ ∧
      (t.core k.val).held (!matHbuf e.f) = (s.core k.val).held (!matHbuf e.f) ∧
      (t.core k.val).mq = (s.core k.val).mq.filter (fun a => decide (a.seq ≠ e.seq)) ∧
      (t.core k.val).acc = (s.core k.val).acc ∧ t.posns = s.posns ∧ t.hbm = s.hbm ∧ t.regs = s.regs) ∧
  ∀ (k : CoreId) (s : State) (e : MatEntry) (t0 : Tile) (fmt : Fmt), s.streamReady k.val = some e →
    (s.core k.val).tileFor e.ctx (bits e.f 37 28) (bits e.f 27 20) e.seq = some t0 → Fmt.ofCode (bits e.f 51 48) = some fmt →
    let n := bits e.f 27 20 + 1
    let x := s.core k.val
    let h := x.held (matHbuf e.f)
    let len := matBytes fmt h.k
    let off := fun j => opBase e.opw + j * opStride e.opw
    let base := s.fld (R.MA_CTX_ACC k.val e.ctx.val) 9 0
    let t1 := if bit e.f 52 then { t0 with live := true } else t0
    let x1 := if bit e.f 52 then x.zeroTile base t1 else x
    let r := x1.streamed base t1 (contribution (bits e.f 54 53) h.fmt (bits e.f 51 48) h.rows) 0
      ((List.range n).map (fun j => rowElems fmt h.k (s.winBytes k.val (off j) len)))
    (∀ j, j < n → s.readsClean k.val e.ctx.val (off j) len) →
    ∃ t, exec (.mmulStream k []) s = .next t ∧ (t.core k.val).acc = r.1.acc ∧ (∀ a ∈ (t.core k.val).mq, a.seq ≠ e.seq) ∧
      t.fld (R.MA_ACTIVE_CNT k.val) 63 0 =
        (s.fld (R.MA_ACTIVE_CNT k.val) 63 0 + n * matPeriod (bits e.f 54 53) h.fmt) % 2 ^ 64 ∧
      (bit e.f 16 = true → t.flag k.val (bits e.f 15 4) = true) ∧ t.posns = s.posns ∧ t.hbm = s.hbm

/-- MDRAIN_RUN writes the rows of its tile and leaves the queue; with KEEP = 0 the tile is gone. The last row of a drain without
a status word holds the delivered elements, and no byte outside the rows it names changes (R62, R105 to R109). -/
def Obligations.MatrixDrainRuns : Prop :=
  ∀ (k : CoreId) (s : State) (e : MatEntry) (t0 : Tile) (q : Nat), s.shut k.val = false → s.phys k.val = some q →
    (s.core k.val).drainNext = some e →
    (s.core k.val).tileFor e.ctx (bits e.f 55 46) (bits e.f 45 38) e.seq = some t0 → bit e.f 27 = false →
    let nvec := bits e.f 45 38
    let size := if bits e.f 37 34 = 14 then 8 else 4
    let off := fun j => opBase e.opw + j * opStride e.opw
    let base := s.fld (R.MA_CTX_ACC k.val e.ctx.val) 9 0
    (∀ j, j ≤ nvec → s.owns k.val e.ctx.val (off j) (t0.w * size) = true) →
    (∀ w, (s.pos q).pad.resolve w = none ∨ (s.pos q).pad.resolve w = some 0x0702) → opBase e.opw % 8 = 0 →
    opStride e.opw % 8 = 0 → (∀ i, Sparse.get (fun _ => false) (s.core k.val).accBad i = false) →
    ∃ t, exec (.mdrainRun k []) s = .next t ∧ (∀ a ∈ (t.core k.val).mq, a.seq ≠ e.seq) ∧
      (bit e.f 28 = false → ∀ t1 ∈ (t.core k.val).tiles, t1.oseq ≠ t0.oseq) ∧
      (∀ w, w < t0.w → ((s.core k.val).drainElem base (bits e.f 37 34) t0 nvec w).bytes =
        (List.range size).map (fun i => some ((t.pos q).pad.byte (off nvec + w * size + i)))) ∧
      (∀ p o, (p ≠ q ∨ ∀ j, j ≤ nvec → o / 8 < off j / 8 ∨ (off j + t0.w * size + 7) / 8 ≤ o / 8) →
        (t.pos p).pad.byte o = (s.pos p).pad.byte o) ∧ t.hbm = s.hbm ∧
      (bit e.f 16 = true → t.flag k.val (bits e.f 15 4) = true)

/-- A BALLAST takes 16 of the occupancy credit and is counted; LEVEL_RISE and LEVEL_FALL move the activity level by one, or by
all of it where the interval field is zero; none of the three touches an accumulator (R84 to R86, R89). -/
def Obligations.BallastAndLevel : Prop :=
  ∀ (k : CoreId) (s : State),
    let l := s.level k.val
    let q := min 96 (s.credit k.val + l)
    (s.bitOf (R.MA_BALLAST_CTL k.val) 31 = true → 0 < l → 16 ≤ q → (s.core k.val).vectorReady = false →
      ∃ t, exec (.ballast k) s = .next t ∧ t.credit k.val = q - 16 ∧ t.level k.val = l ∧
        t.reg (R.MA_BALLAST_CNT k.val) = s.reg (R.MA_BALLAST_CNT k.val) + 1 ∧ t.cores = s.cores ∧ t.posns = s.posns) ∧
    ((s.core k.val).vectorReady = true → l < s.lmax k.val →
      ∃ t, exec (.levelRise k) s = .next t ∧ t.cores = s.cores ∧
        t.level k.val = if s.fld (R.MA_RISE_CTL k.val) 7 0 = 0 then s.lmax k.val else l + 1) ∧
    ((s.core k.val).vectorReady = false → 0 < l →
      ∃ t, exec (.levelFall k) s = .next t ∧ t.cores = s.cores ∧
        t.level k.val = if s.fld (R.MA_BALLAST_CTL k.val) 7 0 = 0 then 0 else l - 1)

/-! ## The vector engine (chapter 05) -/

/-- VLD, VST, VCVT, VRED, NLOAD and VSEED that pass their checks join the vector queue with the scalar words copied (R132,
R134, R135, R137, R139, R156), and the destination of VRED has a result to come (R155). VOP, VROW and NRUN that pass their
checks join the vector queue with the scalar words that they name (R133, R136, R138, R140, R156). An NRUN behind a queued NLOAD
of its slot joins the queue with the words of as many streams as a program may have, its program's checks being still to come:
log entry 93 says that this is the model's choice. -/
def Obligations.VectorIssue : Prop :=
  (∀ (k : CoreId) (f : IBits) (s : State),
    let c := s.running k.val
    let u := s.atIssue k.val
    let x := u.core k.val
    let queued (kind : VecKind) (args : List Word64) (t : State) : Prop := Advanced u t k.val [] ∧
      (t.core k.val).vq = x.vq ++ [⟨kind, c, x.seqNo, s.runPc k.val, f, args, false⟩]
    x.vq.length < 8 →
    (s.ready k.val [bits f 46 42] →
      let w := s.runReg k.val (bits f 46 42)
      let fm := fmtOf (bits f 50 47)
      let n := blockBytes fm 64
      bits f 41 0 = 0 → w.toNat < 2 ^ 22 → bits f 50 47 ≠ 15 → oddPair fm (bits f 55 51) = false → w.toNat % vAlign fm = 0 →
        w.toNat + n ≤ padSize → u.owns k.val c.val w.toNat n = true →
        (∃ t, exec (.vld k f) s = .next t ∧ queued .vld [w] t) ∧ ∃ t, exec (.vst k f) s = .next t ∧ queued .vst [w] t) ∧
    (s.ready k.val [] → bits f 33 0 = 0 → bits f 55 52 ≠ 15 → bits f 51 48 ≠ 15 → bits f 37 35 < 6 →
      oddPair (fmtOf (bits f 51 48)) (bits f 47 43) = false → oddPair (fmtOf (bits f 55 52)) (bits f 42 38) = false →
      ∃ t, exec (.vcvt k f) s = .next t ∧ queued .vcvt [] t) ∧
    (s.ready k.val [bits f 43 39] → bits f 37 0 = 0 → (bits f 55 53 = 4 ∨ bit f 38 = false) → bits f 55 53 < 5 →
      bits f 52 49 ≠ 15 → vredTypeOk (bits f 55 53) (bits f 52 49) = true →
      oddPair (fmtOf (bits f 52 49)) (bits f 48 44) = false →
      ∃ t, exec (.vred k f) s = .next t ∧ queued .vred [] t ∧
        (bits f 43 39 ≠ 0 → bits f 43 39 ∈ (t.ctx k.val c.val).busy)) ∧
    (s.ready k.val [bits f 52 48] →
      let w := s.runReg k.val (bits f 52 48)
      bits f 47 0 = 0 → w.toNat % 8 = 0 → w.toNat + 8 ≤ padSize → u.bitOf (R.VE_CTX k.val c.val) (bits f 55 53) = true →
        u.owns k.val c.val w.toNat 8 = true → ∃ t, exec (.nload k f) s = .next t ∧ queued .nload [w] t) ∧
    (s.ready k.val [bits f 55 51] → bits f 50 0 = 0 →
      ∃ t, exec (.vseed k f) s = .next t ∧ queued .vseed [s.runReg k.val (bits f 55 51)] t)) ∧
  ∀ (k : CoreId) (f : IBits) (s : State),
    let c := s.running k.val
    let u := s.atIssue k.val
    let x := u.core k.val
    let g (i : Nat) : Word64 := s.runReg k.val i
    let queued (kind : VecKind) (args : List Word64) (t : State) : Prop := Advanced u t k.val [] ∧
      (t.core k.val).vq = x.vq ++ [⟨kind, c, x.seqNo, s.runPc k.val, f, args, false⟩]
    x.vq.length < 8 →
    (let fn := bits f 55 50
      let ty := bits f 49 46
      s.ready k.val (if bit f 25 then [bits f 35 31] else []) → vopUnused f = false → vReserved fn = false → fn ≠ 0x0F →
        (if ty = 3 then vFp64Ok fn = true ∧ (vUsesA fn = true → vCompare fn = false → bits f 45 41 % 2 = 0) ∧
            (vUsesA fn = true → bits f 40 36 % 2 = 0) ∧ (vUsesB fn = true → bit f 25 = false → bits f 35 31 % 2 = 0) ∧
            (fn = 5 → bits f 30 26 % 2 = 0)
          else vClass ty ≤ 1 ∧ vTypeOk fn (vClass ty) = true) →
        ∃ t, exec (.vop k f) s = .next t ∧ queued .vop [g (bits f 35 31)] t) ∧
    (let sr := bits f 53 49
      let args := (List.range 5).map (fun i => g (sr + i))
      let r := rowShape f args
      let rs := r.operands.flatMap (fun o => rowRanges (opBase o.1) (opStride o.1) o.2 r.rcnt)
      s.ready k.val ((List.range 5).map (fun i => sr + i)) → sr ≤ 27 → bits f 46 17 = 0 → bits f 3 0 = 0 →
        flagUnused f = false → (∀ o ∈ r.operands, opReserved o.1 = false) → bits (g (sr + 4)) 63 32 = 0 → r.rfn ≠ 3 →
        (∀ w ∈ [r.win, r.wout], opBase w % 4 = 0 ∧ opStride w % 4 = 0) → rowsFit rs = true →
        u.ownsRows k.val c.val rs = true → r.clash = false → u.flagBad k.val c.val f = false →
        ∃ t, exec (.vrow k f) s = .next t ∧ queued .vrow args t) ∧
    (let img := (s.core k.val).slotImg (bits f 55 53)
      let n := newtNin (newtHdr img) + newtNout (newtHdr img)
      let sr := bits f 52 48
      let kr := bits f 47 43
      let ws := (List.range n).map (fun i => g (sr + i))
      s.ready k.val ((List.range n).map (fun i => sr + i) ++ (List.range 4).map (fun i => kr + i) ++ [bits f 42 38]) →
        (∀ e ∈ (s.core k.val).vq, e.kind = .nload → bits e.f 55 53 ≠ bits f 55 53) → sr + n ≤ 32 → kr + 4 ≤ 32 → bits f 37 17 = 0 →
        bits f 3 0 = 0 → flagUnused f = false → (∀ w ∈ ws, opReserved w = false) →
        u.bitOf (R.VE_CTX k.val c.val) (bits f 55 53) = true → u.flagBad k.val c.val f = false →
        (∀ p ∈ u.nrunChecks k.val c.val img (g (bits f 42 38)).toNat ws, p.1 = false) →
        ∃ t, exec (.nrun k f) s = .next t ∧
          queued .nrun ([g (bits f 42 38)] ++ (List.range 4).map (fun i => g (kr + i)) ++ ws) t) ∧
    (let sr := bits f 52 48
      let kr := bits f 47 43
      let args := [g (bits f 42 38)] ++ (List.range 4).map (fun i => g (kr + i)) ++ (List.range 6).map (fun i => g (sr + i))
      s.ready k.val ((List.range 6).map (fun i => sr + i) ++ (List.range 4).map (fun i => kr + i) ++ [bits f 42 38]) →
        (∃ e ∈ (s.core k.val).vq, e.kind = .nload ∧ bits e.f 55 53 = bits f 55 53) → sr + 6 ≤ 32 → kr + 4 ≤ 32 →
        bits f 37 17 = 0 → bits f 3 0 = 0 → flagUnused f = false →
        ∃ t, exec (.nrun k f) s = .next t ∧ Advanced u t k.val [] ∧
          (t.core k.val).vq = x.vq ++ [⟨.nrun, c, x.seqNo, s.runPc k.val, f, args, true⟩])

/-- VECTOR_START takes the front of the vector queue. A VOP puts its operation's result into every lane of its destination, a VLD
the elements at its offset, and a VSEED the generator states of its seed; no other lane changes (R132, R133, R139, R141, R143). -/
def Obligations.VectorStarts : Prop :=
  ∀ (k : CoreId) (s : State) (e : VecEntry) (rest : List VecEntry), s.shut k.val = false → (s.core k.val).vq = e :: rest →
    (∀ a ∈ rest, a.seq ≠ e.seq) →
    let x := s.core k.val
    (e.kind = .vop →
      let fn := bits e.f 55 50
      let fm := fmtOf (bits e.f 49 46)
      let rd := bits e.f 45 41
      let pair := isPair fm && !vCompare fn
      let val (l : Nat) : Nat := vecOp fn fm (x.vget fm (bits e.f 40 36) l)
        (if bit e.f 25 then bits (e.args.getD 0 0) (fm.bitsOf - 1) 0 else x.vget fm (bits e.f 35 31) l)
        (if isPair fm && decide (fn ≠ 0x0E) then x.vget fm (bits e.f 30 26) l else x.lane (bits e.f 30 26) l)
      fn ≠ 0 → (∀ i, Sparse.get (fun _ => false) x.vbad i = false) →
      ∃ t, exec (.vectorStart k []) s = .next t ∧ (t.core k.val).vq = rest ∧
        (∀ l, l < 64 → (t.core k.val).lane rd l = val l % 2 ^ 32 ∧
          (pair = true → (t.core k.val).lane (rd + 1) l = val l / 2 ^ 32 % 2 ^ 32)) ∧
        (∀ r l, r ≠ rd → ¬ (pair = true ∧ r = rd + 1) → l < 64 → (t.core k.val).lane r l = x.lane r l) ∧
        t.posns = s.posns ∧ t.hbm = s.hbm) ∧
    (e.kind = .vld →
      let fm := fmtOf (bits e.f 50 47)
      let off := bits (e.args.getD 0 0) 21 0
      let rd := bits e.f 55 51
      s.readsClean k.val e.ctx.val off (blockBytes fm 64) →
      ∃ t, exec (.vectorStart k []) s = .next t ∧ (t.core k.val).vq = rest ∧
        (∀ l, l < 64 → (t.core k.val).lane rd l = packedAt fm (s.winBytes k.val off (blockBytes fm 64)) l % 2 ^ 32) ∧
        (∀ r l, r ≠ rd → ¬ (isPair fm = true ∧ r = rd + 1) → l < 64 → (t.core k.val).lane r l = x.lane r l) ∧
        t.posns = s.posns ∧ t.hbm = s.hbm) ∧
    (e.kind = .vseed → ∃ t, exec (.vectorStart k []) s = .next t ∧ (t.core k.val).vq = rest ∧
      (∀ l, l < 64 → (t.ctx k.val e.ctx.val).rngAt l =
        (let v := BitVec.ofNat 32 (bits (e.args.getD 0 0) 31 0) ^^^ BitVec.ofNat 32 ((l + 1) * 0x9E3779B9)
          if v = 0 then 1 else v)) ∧
      (t.core k.val).vregs = x.vregs ∧ t.posns = s.posns ∧ t.hbm = s.hbm)

/-- A VST at the front of the queue puts the packed elements of its register at its offset, and no other byte of any scratchpad
changes (R47, R132); an uncorrectable container among those it reads faults its context instead (R142). -/
def Obligations.VectorStoreAndReadFault : Prop :=
  ∀ (k : CoreId) (s : State) (e : VecEntry) (rest : List VecEntry) (q : Nat), (s.core k.val).vq = e :: rest → e.kind = .vst →
    s.phys k.val = some q →
    let x := s.core k.val
    let fm := fmtOf (bits e.f 50 47)
    let off := bits (e.args.getD 0 0) 21 0
    let n := blockBytes fm 64
    let b := packBlock fm (lanes.map (x.vget fm (bits e.f 55 51)))
    (s.shut k.val = false → s.owns k.val e.ctx.val off n = true → (∀ i, Sparse.get (fun _ => false) x.vbad i = false) →
      s.mergeable q off n →
      ∃ t, exec (.vectorStart k []) s = .next t ∧ s.stored t q off (carried b) ∧
        (t.core k.val).vregs = x.vregs ∧ t.hbm = s.hbm) ∧
    ∀ (word : BitVec 19) (err : Upset) (cell : BitVec 11), cell.toNat / 64 ∈ vecRegs e → s.seqState k.val e.ctx.val ≠ 0 →
      s.seqState k.val e.ctx.val ≠ 6 →
      ∃ t, exec (.vectorReadFault k word err (some cell)) s = .next t ∧ t.seqState k.val e.ctx.val = 6 ∧
        t.pc k.val e.ctx.val = e.pc % 2 ^ 22 ∧ t.posns = s.posns ∧ t.hbm = s.hbm

/-! ## Flags and waiting (chapter 09) -/

/-- FSET sets and FCLR clears one flag, or with GRP the flags of a group that RA selects, and FTEST reads a group and with CLR
clears what it read; no other register, no memory and no other scalar register changes. All of them want the flag that they
name in the context's range (R235, R240, R241, R243). -/
def Obligations.FlagInstructions : Prop :=
  ∀ (k : CoreId) (f : IBits) (s : State), bits f 49 16 = 0 → bits f 3 0 = 0 →
    let c := (s.running k.val).val
    let u := s.atIssue k.val
    let n := bits f 15 4
    let a := R.FLG_STATE k.val (n / 64)
    let ra := s.runReg k.val (bits f 54 50)
    (s.ready k.val [bits f 54 50] →
      (if bit f 55 then n % 64 = 0 else bits f 54 50 = 0) → u.flagOk k.val c n = true →
      (∃ t, exec (.fset k f) s = .next t ∧ Advanced u t k.val [a] ∧
        t.reg a = u.reg a ||| (if bit f 55 then ra else 1#64 <<< (n % 64))) ∧
      ∃ t, exec (.fclr k f) s = .next t ∧ Advanced u t k.val [a] ∧
        t.reg a = u.reg a &&& ~~~ (if bit f 55 then ra else 1#64 <<< (n % 64))) ∧
    (s.ready k.val [fRD f] → n % 64 = 0 → u.groupOk k.val c (n / 64) = true →
      ∃ t, exec (.ftest k f) s = .next t ∧ t.runPc k.val = s.runPc k.val + 8 ∧
        t.sreg k.val c (fRD f) = (if fRD f = 0 then 0 else u.reg a) ∧ t.reg a = (if bit f 50 then 0 else u.reg a) ∧
        (∀ j d i, ¬ (j = k.val ∧ d = c ∧ i = fRD f) → t.sreg j d i = s.sreg j d i) ∧ t.posns = u.posns ∧ t.hbm = u.hbm)

/-- A WAIT whose condition holds ends at once, with the time, no TIMEOUT and MATCH in RD; one with no time to wait ends with
TIMEOUT and is counted; any other leaves its context in WAIT with FLG_WAIT_k telling what it waits on (R242 to R246, R248).
WAIT_SET ends a pending wait of the running context whose condition holds, as a timeout where its deadline lies behind, and
WAIT_TIMEOUT one whose deadline has come while the condition does not hold, or lies behind; a timeout is counted, and for a
context that does not run the decision is kept with its result word (R244, R245, R248). -/
def Obligations.Waits : Prop :=
  (∀ (k : CoreId) (f : IBits) (s : State), s.ready k.val [fRD f, fRA f, fRB f] →
    let c := (s.running k.val).val
    let u := s.atIssue k.val
    let rt := s.runReg k.val (fRA f)
    let lw := s.runReg k.val (fRB f)
    let nf := bits f 37 36
    let fl := (List.range (nf + 1)).map (listFlag lw)
    let w : FlagWait := ⟨bit f 40, bit f 39, nf, fl, fRD f, if bit f 38 then none else some (u.chorusNs + bits rt 39 0), none⟩
    bits f 35 0 = 0 → (bit f 38 = true → fRA f = 0) → listReserved lw nf = false → bits rt 63 40 = 0 →
    (∀ n ∈ fl, u.flagOk k.val c n = true) →
    ∃ t, exec (.wait k f) s = .next t ∧ t.runPc k.val = s.runPc k.val + 8 ∧ t.posns = u.posns ∧ t.hbm = u.hbm ∧
      (u.waitHolds k.val w = true ∨ (bit f 38 = false ∧ bits rt 39 0 = 0) →
        let out := !u.waitHolds k.val w
        t.seqState k.val c = 1 ∧ (t.ctx k.val c).wait = none ∧
        (fRD f ≠ 0 → t.sreg k.val c (fRD f) = BitVec.ofNat 64 (u.viewNs (u.partOf k.val c) % 2 ^ 32 * 2 ^ 32 +
          out.toNat * 2 ^ 31 + u.waitMatch k.val w)) ∧
        (∀ n ∈ fl, bit f 39 = true → out = false → t.flag k.val n = false)) ∧
      (u.waitHolds k.val w = false → (bit f 38 = true ∨ bits rt 39 0 ≠ 0) →
        t.seqState k.val c = 3 ∧ (t.ctx k.val c).wait = some w ∧ t.reg (R.FLG_WAIT k.val c) = waitReg w ∧
        ∀ j d i, t.sreg j d i = s.sreg j d i)) ∧
  ∀ (k : CoreId) (c : CtxId) (s : State) (w : FlagWait), s.openWait k.val c.val = some w →
    let word (out : Bool) : Word64 :=
      BitVec.ofNat 64 (s.viewNs (s.partOf k.val c.val) % 2 ^ 32 * 2 ^ 32 + out.toNat * 2 ^ 31 + s.waitMatch k.val w)
    let ended (out : Bool) (t : State) : Prop := t.posns = s.posns ∧ t.hbm = s.hbm ∧
      (if s.running k.val = c then t.seqState k.val c.val = 1 ∧ (t.ctx k.val c.val).wait = none ∧
          (w.rd ≠ 0 → t.sreg k.val c.val w.rd = word out)
        else (t.ctx k.val c.val).wait = some { w with result := some (word out) } ∧
          ∀ j d i, t.sreg j d i = s.sreg j d i)
    let counted (out : Bool) (t : State) : Prop := t.fld (R.FLG_TMO_CNT k.val c.val) 31 0 =
      if out then min (s.fld (R.FLG_TMO_CNT k.val c.val) 31 0 + 1) (2 ^ 32 - 1) else s.fld (R.FLG_TMO_CNT k.val c.val) 31 0
    (∀ out : Bool, s.waitHolds k.val w = true → (out = true ↔ ∃ d, w.deadline = some d ∧ d < s.chorusNs) →
      ∃ t, exec (.waitSet k c) s = .next t ∧ ended out t ∧ counted out t) ∧
    (∀ d, w.deadline = some d → d ≤ s.chorusNs → (s.waitHolds k.val w = false ∨ d < s.chorusNs) →
      ∃ t, exec (.waitTimeout k c) s = .next t ∧ ended true t ∧ counted true t)

/-! ## The scratchpad (chapter 07) -/

/-- BANK_ACCESS on an idle bank: a single request that fits the bank is granted in the same CCLK, so that a write's bytes are
stored, and a partial write holds its bank for a second CCLK; of two requests the one that R178 grants first leaves and the other
stays pending, so that a read beside a write gives the bytes from before the write; a bank in the second CCLK of an access
grants nothing (R176, R178, R179). CORRECTED_WRITEBACK writes a corrected word back: it reads without an error from then on, its
write-back is no longer pending, and no byte changes (R185). -/
def Obligations.ScratchpadBanks : Prop :=
  (∀ (k : CoreId) (b : Fin 32) (n : Nat) (s : State) (q : Nat), s.shut k.val = false → s.phys k.val = some q →
    let x := (s.core k.val).bank
    x.pend = [] → x.used = [] → x.cclk ≤ n →
    (∀ (r : BankReq) (d : List TByte), x.held = [] → r.op = .write d → reqFits r b.val = true →
      (∀ c, r.ctx = some c → s.owns k.val c.val r.off.toNat d.length = true) →
      s.mergeable q r.off.toNat d.length →
      ∃ t, exec (.bankAccess k b ⟨n, [r]⟩ []) s = .next t ∧ (t.core k.val).bank.pend = [] ∧
        (t.core k.val).bank.out = some ⟨r, [], 0⟩ ∧
        ((b.val, n + 1) ∈ (t.core k.val).bank.held ↔ (r.off.toNat % 8 ≠ 0 ∨ d.length % 8 ≠ 0)) ∧ t.hbm = s.hbm ∧
        s.stored t q r.off.toNat d) ∧
    (∀ r1 r2 : BankReq, x.held = [] → reqFits r1 b.val = true → reqFits r2 b.val = true →
      kindRank r1.op * 5 + portRank r1.port < kindRank r2.op * 5 + portRank r2.port → r1.port ≠ r2.port →
      ∃ t r o, exec (.bankAccess k b ⟨n, [r2, r1]⟩ []) s = .next t ∧ (t.core k.val).bank.pend = [r] ∧ r.req = r2 ∧
        (t.core k.val).bank.out = some o ∧ o.req = r1 ∧
        (∀ c, r1.op = .read → r1.ctx = some c → s.readsClean k.val c.val r1.off.toNat r1.len →
          o.status = 0 ∧ o.data = carried (s.winBytes k.val r1.off.toNat r1.len))) ∧
    ∀ r : BankReq, x.held = [(b.val, n)] → reqFits r b.val = true →
      ∃ t p, exec (.bankAccess k b ⟨n, [r]⟩ []) s = .next t ∧ (t.core k.val).bank.pend = [p] ∧ p.req = r ∧ s.sameMem t) ∧
  ∀ (k : CoreId) (word : BitVec 19) (s : State) (q : Nat), s.phys k.val = some q → word.toNat ∈ (s.pos q).pad.wb →
    ∃ t, exec (.correctedWriteback k word) s = .next t ∧
      Sparse.get (fun _ => Err.ok) (t.pos q).pad.errs word.toNat = .ok ∧ word.toNat ∉ (t.pos q).pad.wb ∧
      word.toNat ∈ (t.pos q).pad.fixed ∧ (∀ p o, (t.pos p).pad.byte o = (s.pos p).pad.byte o) ∧ t.regs = s.regs

/-- COUNT adds to a counter of its own core's window and CCOUNT does when the counter equals RB; RD takes the old value, sign-
extended, and no byte outside the counter changes (R190, R191). COUNT-TO-FLAG on a counter at or above its threshold sets the
flag and puts 1 into RD; below it, it arms a watch and puts 0 there (R190, R192). -/
def Obligations.Counters : Prop :=
  (∀ (k : CoreId) (f : IBits) (s : State) (v : State) (a q : Nat), s.ready k.val [fRD f, fRA f, fRB f, fRC f] →
    let c := s.running k.val
    let va := (s.runReg k.val (fRA f)).toNat
    let n := if bits f 35 34 = 2 then 4 else 8
    let rb := (s.runReg k.val (fRB f)).toNat
    let rc := (s.runReg k.val (fRC f)).toNat
    (s.atIssue k.val).coreTranslate k.val c.val va n true = (v, [(a, n)], 0) → v.coreAccess k c [(a, n)] = 0 →
    v.regionOf a n = some (.window k.val) → v.phys k.val = some q → v.readsClean k.val c.val (winOff a) n →
    winOff a % n = 0 → 2 ≤ bits f 35 34 → va % n = 0 →
    let old := leNat (v.winBytes k.val (winOff a) n)
    let counts (new : Nat) (t : State) : Prop :=
      (t.pos q).pad.readBytes (winOff a) n = carried (leBytes n new) ∧
      (fRD f ≠ 0 → t.sreg k.val c.val (fRD f) = BitVec.ofInt 64 (signed (8 * n) old)) ∧
      (∀ p o, (p ≠ q ∨ o < winOff a ∨ winOff a + n ≤ o) → (t.pos p).pad.byte o = (v.pos p).pad.byte o) ∧ t.hbm = v.hbm ∧
      t.runPc k.val = s.runPc k.val + 8
    (atUnused f false true false = false →
      ∃ t, exec (.count k f) s = .next t ∧ counts ((old + rb) % 2 ^ (8 * n)) t) ∧
    (atUnused f true true false = false →
      ∃ t, exec (.ccount k f) s = .next t ∧ counts (if rb % 2 ^ (8 * n) = old then (old + rc) % 2 ^ (8 * n) else old) t)) ∧
  ∀ (k : CoreId) (f : IBits) (s : State), s.ready k.val [fRD f, fRA f, fRB f] →
    let c := s.running k.val
    let u := s.atIssue k.val
    let ra := (s.runReg k.val (fRA f)).toNat
    let n := if bits f 35 34 = 2 then 4 else 8
    let thr := signed (8 * n) ((s.runReg k.val (fRB f)).toNat % 2 ^ (8 * n))
    let now := signed (8 * n) (leNat (u.winBytes k.val ra n))
    atUnused f false true true = false → 2 ≤ bits f 35 34 → ra % n = 0 → ra + n ≤ padSize →
    u.readsClean k.val c.val ra n → u.flagOk k.val c.val (bits f 15 4) = true →
    (u.ctx k.val c.val).watches.length < 16 →
    ∃ t, exec (.ctflag k f) s = .next t ∧ t.runPc k.val = s.runPc k.val + 8 ∧ t.posns = u.posns ∧ t.hbm = u.hbm ∧
      (fRD f ≠ 0 → t.sreg k.val c.val (fRD f) = if thr ≤ now then 1 else 0) ∧
      (thr ≤ now → t.flag k.val (bits f 15 4) = true ∧ (t.ctx k.val c.val).watches = (u.ctx k.val c.val).watches) ∧
      (now < thr → (t.ctx k.val c.val).watches = (u.ctx k.val c.val).watches ++ [⟨ra, n, thr, bits f 15 4⟩])

/-- CREDIT_REQ and CREDIT_RET send a message to the destination that RA names, and RD waits for its response (R189, R190,
R196, R198). A credit response in time, one that waits in the network or what arrives from another chip, lands in its RD and
ends the wait, and without one within SP_CREDIT_CFG.TMO RD takes GS_0709 (R196, R198, R203, R222, R302). -/
def Obligations.CreditMessages : Prop :=
  (∀ (k : CoreId) (f : IBits) (s : State), s.ready k.val [fRD f, fRA f, fRB f] →
    let c := s.running k.val
    let u := s.atIssue k.val
    let ra := s.runReg k.val (fRA f)
    let rb := s.runReg k.val (fRB f)
    let x := (u.core k.val).seqNo
    atUnused f false false false = false → bits ra 49 32 = 0 → bits ra 21 0 % 4096 = 0 →
    let sent (arg : Word64) (ret : Bool) (t : State) : Prop := Advanced u t k.val [] ∧
      t.net = u.net ++ [.credit ⟨u.self k c, u.jobOf k.val c.val, BitVec.ofNat 10 (bits ra 31 22),
        BitVec.ofNat 22 (bits ra 21 0), arg, u.stamp, x⟩ (bits ra 63 50) ret] ∧
      (t.ctx k.val c.val).credits = (u.ctx k.val c.val).credits ++ [⟨u.epochOf (u.partOf k.val c.val), fRD f, ret, ra, u.ns, x, false⟩] ∧
      (fRD f ≠ 0 → fRD f ∈ (t.ctx k.val c.val).busy)
    (rb.toNat % 4096 = 0 → 0 < rb.toNat → rb.toNat ≤ padSize →
      ∃ t, exec (.creditReq k f) s = .next t ∧ sent rb false t) ∧
    ∃ t, exec (.creditRet k f) s = .next t ∧ sent rb true t) ∧
  ∀ (k : CoreId) (c : CtxId) (xfer : BitVec 64) (s : State) (w : CreditWait),
    (s.ctx k.val c.val).credit xfer.toNat = some w → w.dead = false → w.rd ≠ 0 →
    let landed (word : Word64) (t : State) : Prop := t.sreg k.val c.val w.rd = word ∧
      (t.ctx k.val c.val).credits = (s.ctx k.val c.val).credits.erase w ∧
      (t.ctx k.val c.val).busy = (s.ctx k.val c.val).busy.erase w.rd ∧ t.regs = s.regs ∧ t.posns = s.posns
    let current : Prop := ∀ p, s.partOf k.val c.val = some p → w.epoch = (s.part p).epoch
    (∀ (word : Word64) (age : BitVec 24), current → s.takeAnswer (s.self k c) w.seq = none → bits w.addr 63 50 ≠ s.chipId →
      s.tooOld k.val age.toNat = false → ∃ t, exec (.creditResponse k c xfer word age) s = .next t ∧ landed word t) ∧
    (∀ (word v : Word64) (age : BitVec 24) (st : Status) (stamp : Nat) (u : State), current →
      s.takeAnswer (s.self k c) w.seq = some (u, st, v, stamp) → s.tooOld k.val stamp = false →
      ∃ t, exec (.creditResponse k c xfer word age) s = .next t ∧ landed v t ∧ t.net = u.net) ∧
    (s.net.any (answersXfer (s.self k c) w.seq) = false → w.issued + max 1 (s.fld (R.SP_CREDIT_CFG k.val) 15 0) * 1000 ≤ s.ns →
      ∃ t, exec (.creditTimeout k c xfer) s = .next t ∧ t.sreg k.val c.val w.rd = 0x0709_0000_0000_0000 ∧
        (∀ x ∈ (t.ctx k.val c.val).credits, x.seq = w.seq → x.dead = true) ∧
        (t.ctx k.val c.val).busy = (s.ctx k.val c.val).busy.erase w.rd ∧ t.regs = s.regs ∧ t.posns = s.posns)

/-- A credit request that finds a FREE unit of the binding and an eligible grant entry makes a grant over the run of FREE units
and answers with it; a return of a live grant by its holder, and the end of its lease, end it: its units become HELD and the
entry's generation advances (R195, R196, R198, R199). -/
def Obligations.GrantsBeginAndEnd : Prop :=
  ∀ (k : CoreId) (s : State), s.shut k.val = false →
    (∀ (m : CreditMsg) (b : Option Nat) (i c : Nat), s.target m.job m.core.toNat = .ok (b, k.val) →
      s.tooOld k.val m.age = false →
      let u := m.off.toNat / 4096
      let run := s.freeRun k.val c u (m.arg.toNat / 4096)
      let g := (s.core k.val).grant i
      u < 768 → s.boundOwns k.val (u * 4096) 1 b = true → (s.core k.val).unit u = .free → s.freeGrant k.val = some i →
      s.segOwner k.val (u / 16) = some c →
      ∃ t, exec (.creditRequestArrival k m) s = .next t ∧
        (t.core k.val).grant i = ⟨true, g.gen, some m.src, false, u, run, s.ns, s.fld (R.SP_CREDIT_CFG k.val) 31 16, g.freedAt⟩ ∧
        (∀ j, (t.core k.val).unit j = if u ≤ j ∧ j < u + run then .granted else (s.core k.val).unit j) ∧
        (∃ w, t.net.getLast? = some (.resp m.src m.xfer 0 w s.stamp) ∧ bits w 63 48 = 0 ∧ bits w 47 32 = run % 2 ^ 16 ∧
          (i < 256 → bits w 7 0 = i)) ∧ t.posns = s.posns ∧ t.hbm = s.hbm) ∧
    let ended (i : Nat) (t : State) : Prop :=
      let g := (s.core k.val).grant i
      (t.core k.val).grant i = { g with used := false, src := none, gen := g.gen + 1, freedAt := some s.ns } ∧
      (∀ j, (t.core k.val).unit j = if g.first ≤ j ∧ j < g.first + g.count ∧ (s.core k.val).unit j = .granted then .held
        else (s.core k.val).unit j) ∧ t.posns = s.posns ∧ t.hbm = s.hbm
    (∀ (m : CreditMsg) (b : Option Nat), s.target m.job m.core.toNat = .ok (b, k.val) → s.tooOld k.val m.age = false →
      let g := (s.core k.val).grant (bits m.arg 7 0)
      g.used = true → g.lf = false → g.gen = BitVec.ofNat 4 (bits m.arg 15 12) → g.src = some m.src →
      ∃ t, exec (.creditReturnArrival k m) s = .next t ∧ ended (bits m.arg 7 0) t ∧
        t.net.getLast? = some (.resp m.src m.xfer 0 0 s.stamp)) ∧
    (∀ tag : BitVec 8, ((s.core k.val).grant tag.toNat).used = true → ((s.core k.val).grant tag.toNat).lease ≠ 0 →
      ((s.core k.val).grant tag.toNat).madeAt + ((s.core k.val).grant tag.toNat).lease * 1000 ≤ s.ns →
      ∃ t, exec (.grantLeaseExpiry k tag) s = .next t ∧ ended tag.toNat t)

/-! ## Register writes -/

/-- Writes that pass their checks give a context its accumulator rows, program slots and flags, with what R83, R130 and R251
make of the tiles, slots and flags that change hands, and set MA_BALLAST_CTL and MA_RISE_CTL, L falling to a reduced LMAX
(R83, R87, R88, R130, R237, R251). -/
def Obligations.CoreRangeWrites : Prop :=
  ∀ (a : Agent) (k : CoreId) (c : CtxId) (v : BitVec 32) (s : State),
    let w : Word64 := BitVec.ofNat 64 v.toNat
    let acc := R.MA_CTX_ACC k.val
    let slot := R.VE_CTX k.val
    let flg := R.FLG_CTX k.val
    (s.accepts a (acc c.val) false w → bits v 9 0 + bits v 26 16 ≤ 1024 →
      (∀ d, d < 4 → d ≠ c.val → overlaps (bits v 9 0) (bits v 26 16) (s.fld (acc d) 9 0) (s.fld (acc d) 26 16) = false) →
      ∃ t, exec (.maCtxAccWrite a k c v) s = .next t ∧ t.fld (acc c.val) 26 16 = bits v 26 16 ∧
        t.fld (acc c.val) 9 0 = bits v 9 0 ∧ (∀ x ∈ (t.core k.val).tiles, x.ctx ≠ c) ∧
        (t.core k.val).acc = (s.core k.val).acc ∧ s.sameMem t) ∧
    (s.accepts a (slot c.val) false w → (∀ d, d < 4 → d ≠ c.val → bits (s.reg (slot d) &&& w) 7 0 = 0) →
      ∃ t, exec (.veCtxWrite a k c v) s = .next t ∧ t.fld (slot c.val) 7 0 = bits v 7 0 ∧ s.regsBut t [slot c.val] ∧
        (∀ j, j < 8 → Sparse.get (fun _ => []) (t.core k.val).slots j =
          if s.bitOf (slot c.val) j && !bit v j then [] else Sparse.get (fun _ => []) (s.core k.val).slots j) ∧ s.sameMem t) ∧
    (s.accepts a (flg c.val) false w → s.seqState k.val c.val = 0 →
      (bits v 13 8 = 0 ∨ (bits v 5 0 ≠ 0 ∧ bits v 5 0 + bits v 13 8 ≤ 64 ∧
        ∀ d, d < 4 → d ≠ c.val → ∀ g ∈ groupsOf (s.reg (flg d)), g ∉ groupsOf w)) →
      ∃ t, exec (.flgCtxWrite a k c v) s = .next t ∧ t.fld (flg c.val) 13 8 = bits v 13 8 ∧
        t.fld (flg c.val) 5 0 = bits v 5 0 ∧ s.sameMem t ∧
        ∀ g, g < 64 → t.reg (R.FLG_STATE k.val g) =
          if (groupsOf (s.reg (flg c.val))).contains g = (groupsOf w).contains g then s.reg (R.FLG_STATE k.val g) else 0) ∧
    (s.accepts a (R.MA_BALLAST_CTL k.val) false w →
      ∃ t, exec (.maBallastCtlWrite a k v) s = .next t ∧ t.bitOf (R.MA_BALLAST_CTL k.val) 31 = bit v 31 ∧
        t.fld (R.MA_BALLAST_CTL k.val) 23 16 = bits v 23 16 ∧ t.fld (R.MA_BALLAST_CTL k.val) 7 0 = bits v 7 0 ∧
        s.regsBut t [R.MA_BALLAST_CTL k.val] ∧ t.cores = s.cores ∧ s.sameMem t) ∧
    (s.accepts a (R.MA_RISE_CTL k.val) false w →
      ∃ t, exec (.maRiseCtlWrite a k v) s = .next t ∧ t.fld (R.MA_RISE_CTL k.val) 12 8 = bits v 12 8 ∧
        t.fld (R.MA_RISE_CTL k.val) 7 0 = bits v 7 0 ∧ t.level k.val = min (s.level k.val) (min 16 (bits v 12 8)) ∧
        s.regsBut t [R.MA_RISE_CTL k.val, R.MA_LEVEL k.val] ∧ t.cores = s.cores ∧ s.sameMem t)

/-- A changed SP_SEG_s makes every word of the segment unwritten, its units IDLE and its watches gone, and one that changes
nothing does nothing; OFFER makes IDLE and HELD units FREE and WITHDRAW makes FREE and HELD units IDLE; FLUSH, and a change of
MODE, close every entry; FLG_FW_SET and FLG_FW_CLR set and clear flags of group 0 (R182, R195, R226, R228, R252). -/
def Obligations.WindowRegisterWrites : Prop :=
  ∀ (a : Agent) (k : CoreId) (s : State),
    (∀ (g : Fin 48) (v : BitVec 32) (q : Nat), s.accepts a (R.SP_SEG k.val g.val) false (BitVec.ofNat 64 v.toNat) →
      s.phys k.val = some q →
      let r := R.SP_SEG k.val g.val
      let same := s.bitOf r 7 = bit v 7 ∧ s.fld r 4 3 = bits v 4 3 ∧ s.bitOf r 0 = bit v 0
      ∃ t, exec (.spSegWrite a k g v) s = .next t ∧ t.bitOf r 7 = bit v 7 ∧ t.fld r 4 3 = bits v 4 3 ∧ t.bitOf r 0 = bit v 0 ∧
        s.regsBut t [r] ∧
        (same → t.cores = s.cores ∧ s.sameMem t) ∧
        (¬ same → (∀ w, w / 0x2000 = g.val → (t.pos q).pad.resolve w = some 0x0702) ∧
          (∀ w, w / 0x2000 ≠ g.val → (t.pos q).pad.resolve w = (s.pos q).pad.resolve w) ∧
          (∀ o, o / 0x10000 ≠ g.val → (t.pos q).pad.byte o = (s.pos q).pad.byte o) ∧
          (∀ u, u / 16 = g.val → (t.core k.val).unit u = .idle) ∧
          (∀ c, c < 4 → ∀ x ∈ (t.ctx k.val c).watches, x.off / 0x10000 ≠ g.val) ∧ t.hbm = s.hbm)) ∧
    (∀ (c : CtxId) (v : BitVec 32), s.accepts a (R.SP_RX_CTL k.val c.val) false (BitVec.ofNat 64 v.toNat) →
      let u := bits v 9 0
      let n := bits v 19 10 + 1
      let turned (f : UnitSt → UnitSt) (t : State) : Prop := t.regs = s.regs ∧ s.sameMem t ∧
        ∀ j, (t.core k.val).unit j = if u ≤ j ∧ j < u + n then f ((s.core k.val).unit j) else (s.core k.val).unit j
      u + n ≤ 768 → s.owns k.val c.val (u * 4096) (n * 4096) = true →
      (bits v 31 30 = 1 → ∃ t, exec (.offer a k c v) s = .next t ∧
        turned (fun x => match x with | .idle => .free | .held => .free | y => y) t) ∧
      (bits v 31 30 = 2 → ∃ t, exec (.withdraw a k c v) s = .next t ∧
        turned (fun x => match x with | .free => .idle | .held => .idle | y => y) t)) ∧
    (∀ c : CtxId, s.accepts a (R.SP_PG_CTL k.val c.val) false 0x80000000 →
      ∃ t, exec (.flush a k c) s = .next t ∧ (∀ e ∈ (t.ctx k.val c.val).groups, e.st = .closed) ∧ s.sameMem t) ∧
    (∀ (c : CtxId) (v : BitVec 32), s.accepts a (R.SP_PG_CFG k.val c.val) false (BitVec.ofNat 64 v.toNat) →
      let r := R.SP_PG_CFG k.val c.val
      bits v 26 23 < 13 → bits v 2 0 = 0 → s.owns k.val c.val (bits v 21 0) (8 * 2 ^ bits v 26 23) = true →
      ∃ t, exec (.spPgCfgWrite a k c v) s = .next t ∧ t.bitOf r 31 = bit v 31 ∧ t.fld r 30 27 = bits v 30 27 ∧
        t.fld r 26 23 = bits v 26 23 ∧ t.fld r 21 0 = bits v 21 0 ∧ s.sameMem t ∧
        (s.bitOf r 31 ≠ bit v 31 → ∀ e ∈ (t.ctx k.val c.val).groups, e.st = .closed ∧ e.landed = 0 ∧ e.failed = 0) ∧
        (s.bitOf r 31 = bit v 31 → t.cores = s.cores)) ∧
    ∀ v : Word64,
      (s.accepts a (R.FLG_FW_SET k.val) true v → ∃ t, exec (.flgFwSet a k v) s = .next t ∧
        t.reg (R.FLG_STATE k.val 0) = s.reg (R.FLG_STATE k.val 0) ||| v ∧ s.regsBut t [R.FLG_STATE k.val 0] ∧
        t.cores = s.cores ∧ s.sameMem t) ∧
      (s.accepts a (R.FLG_FW_CLR k.val) true v → ∃ t, exec (.flgFwClr a k v) s = .next t ∧
        t.reg (R.FLG_STATE k.val 0) = s.reg (R.FLG_STATE k.val 0) &&& ~~~ v ∧ s.regsBut t [R.FLG_STATE k.val 0] ∧
        t.cores = s.cores ∧ s.sameMem t)

/-! ## Work submission (chapter 11) -/

/-- EN = 1 on an IDLE ring makes it ACTIVE with its pointers at 0 and PHASE 1; EN = 0 completes every descriptor that has not
started and drains the ring; a doorbell that R284 accepts moves the tail or frees record slots, so that held records are
written while there is room and up to the first whose chain read is to come, and one that it refuses sets DBERR alone (R282, R283, R284, R293). -/
def Obligations.RingControl : Prop :=
  ∀ (fn : FuncId) (r : Fin 8) (s : State),
    let cfg := R.FE_RING_CFG fn.val r.val
    let stat := R.FE_RING_STAT fn.val r.val
    let cq := R.FE_CQ_PTR fn.val r.val
    let logs (v : BitVec 32) : Prop := 4 ≤ bits v 12 8 ∧ bits v 12 8 ≤ 16 ∧ 4 ≤ bits v 4 0 ∧ bits v 4 0 ≤ 16
    (∀ (a : Agent) (v : BitVec 32), s.accepts a cfg false (BitVec.ofNat 64 v.toNat) → logs v →
      (bit v 31 = true → s.bitOf cfg 31 = false → s.ringState fn.val r.val = 0 → (s.partOfFunc fn.val).isSome = true →
        ∃ t, exec (.ringEnable a fn r v) s = .next t ∧ t.bitOf cfg 31 = true ∧ t.fld cfg 12 8 = bits v 12 8 ∧
          t.fld cfg 4 0 = bits v 4 0 ∧ t.ringState fn.val r.val = 1 ∧ t.reg (R.FE_SQ_HEAD fn.val r.val) = 0 ∧
          t.fld cq 15 0 = 0 ∧ t.fld cq 16 16 = 1 ∧ (t.ring fn.val r.val).tail = 0 ∧ (t.ring fn.val r.val).cqHead = 0 ∧
          s.sameMem t ∧ t.cores = s.cores) ∧
      (bit v 31 = false → s.bitOf cfg 31 = true → (s.ringState fn.val r.val = 1 ∨ s.ringState fn.val r.val = 3) →
        bits v 12 8 = s.fld cfg 12 8 → bits v 4 0 = s.fld cfg 4 0 →
        ∃ t, exec (.ringDisable a fn r v) s = .next t ∧ t.bitOf cfg 31 = false ∧
          (∀ d ∈ t.fe.descs, d.func = fn.val → d.ring = r.val → d.begun = true) ∧ (t.ring fn.val r.val).chainRd = [] ∧
          (t.ringState fn.val r.val = 2 ∨ t.ringState fn.val r.val = 0) ∧
          (t.ringDescs fn.val r.val = [] → (t.ring fn.val r.val).held = [] → t.ringState fn.val r.val = 0) ∧ s.sameMem t)) ∧
    ∀ (size : Fin 4) (v : Word64),
      let i := bits v 15 0
      let fits : Prop := 2 ≤ size.val ∧ bits v (8 * 2 ^ size.val - 1) 16 = 0
      (∃ t, exec (.submissionDoorbell fn r size v) s = .next t ∧ t.cores = s.cores ∧ s.sameMem t ∧
        if fits ∧ i < s.sqSize fn.val r.val ∧ s.ringState fn.val r.val = 1 then
          t.ring fn.val r.val = { s.ring fn.val r.val with tail := i } ∧ t.regs = s.regs ∧ t.fe.descs = s.fe.descs
        else t.bitOf stat 0 = true ∧ s.regsBut t [stat] ∧ t.fe = s.fe) ∧
      ∃ t, exec (.completionDoorbell fn r size v) s = .next t ∧ t.cores = s.cores ∧ s.sameMem t ∧
        let n := s.cqSize fn.val r.val
        let h := (s.ring fn.val r.val).cqHead
        if fits ∧ i < n ∧ s.ringState fn.val r.val ≠ 0 ∧ (i + n - h) % n ≤ (s.fld cq 15 0 + n - h) % n then
          (t.ring fn.val r.val).cqHead = i ∧ (t.ring fn.val r.val).held <:+ (s.ring fn.val r.val).held ∧
            ((t.ring fn.val r.val).held = [] ∨ t.bitOf stat 2 = true ∨
              ∃ b rest, (t.ring fn.val r.val).held = b :: rest ∧ b.wait.isSome = true)
        else t.bitOf stat 0 = true ∧ s.regsBut t [stat] ∧ t.fe = s.fe

/-- EN = 1 empties a device queue and EN = 0 ends every open BASK on it; a tail doorbell posts entries; BASK waits, its entry
or its deadline ends it; an entry that came back goes before entry HEAD, and a context that is not running has its entry held
with the bytes that its slot had; QPOST posts 64 bytes at TAIL (R284, R296, R297, R299, R300, R303). -/
def Obligations.DeviceQueues : Prop :=
  ∀ (s : State),
    (∀ (fn : FuncId) (q : BitVec 8),
      let cfg := R.FE_Q_CFG fn.val q.toNat
      let ptr := R.FE_Q_PTR fn.val q.toNat
      let n := 2 ^ s.fld cfg 3 0
      let tail := s.fld ptr 31 16
      let head := s.fld ptr 15 0
      (∀ (a : Agent) (v : BitVec 32), s.accepts a cfg false (BitVec.ofNat 64 v.toNat) → 4 ≤ bits v 3 0 → bits v 3 0 ≤ 12 →
        (bit v 31 = true → s.bitOf cfg 31 = false → ∃ t, exec (.queueEnable a fn q v) s = .next t ∧ t.bitOf cfg 31 = true ∧
          t.bitOf cfg 30 = bit v 30 ∧ t.fld cfg 3 0 = bits v 3 0 ∧ t.reg ptr = 0 ∧ s.regsBut t [cfg, ptr] ∧
          t.cores = s.cores ∧ s.sameMem t) ∧
        (bit v 31 = false → s.bitOf cfg 31 = true → bits v 3 0 = s.fld cfg 3 0 → bit v 30 = s.bitOf cfg 30 →
          ∃ t, exec (.queueDisable a fn q v) s = .next t ∧ t.bitOf cfg 31 = false ∧ s.sameMem t ∧
            ∀ k c, c < 4 → t.baskOpen fn.val q.toNat k c = none)) ∧
      (∀ (size : Fin 4) (v : Word64),
        let i := bits v 15 0
        let d := (i + n - tail % n) % n
        ∃ t, exec (.queueDoorbell fn q size v) s = .next t ∧ t.cores = s.cores ∧ s.sameMem t ∧
          if size = 2 ∧ bits v 31 16 = 0 ∧ i < n ∧ s.bitOf cfg 31 = true ∧ s.bitOf cfg 30 = false ∧
              s.queueCount fn.val q.toNat + d ≤ n then t.fld ptr 31 16 = (tail + d) % 65536 ∧ s.regsBut t [ptr]
          else t.bitOf cfg 29 = true ∧ s.regsBut t [cfg]) ∧
      (∀ (k c : Nat) (w : BaskWait) (p : Nat), s.bitOf cfg 31 = true → s.partOfFunc fn.val = some p →
        (s.part p).quar = none → s.postedBefore fn.val (s.doorOf fn.val) = false →
        s.firstWaiter fn.val q.toNat = some (k, c, w) →
        let back := s.fe.returned.find? (fun r => r.func == fn.val && r.queue == q.toNat)
        (∀ (v : State) (d : List TByte) (st : Status), back = none → s.queueCount fn.val q.toNat ≠ 0 →
          (s.setFld ptr 15 0 (head + 1)).feRead p (s.queueSlot fn.val q.toNat head) = (v, d, st) →
          ∃ t, exec (.baskDelivery fn q) s = .next t ∧
            (s.running k ≠ c → t.fld ptr 15 0 = v.fld ptr 15 0 ∧ v.sameMem t ∧
              (t.ctx k c).bask = some { w with entry := some ⟨head, d, st⟩ }) ∧
            (s.running k = c → t.seqState k c = 1 ∧ (t.ctx k c).bask = none ∧
              (w.rd ≠ 0 → bits (t.sreg k c w.rd) 31 0 = head))) ∧
        ∀ r, back = some r → ∃ t, exec (.baskDelivery fn q) s = .next t ∧ t.fld ptr 15 0 = head ∧
          t.fe.returned = s.fe.returned.erase r ∧
          (s.running k ≠ c → (t.ctx k c).bask = some { w with entry := some r.entry } ∧ s.sameMem t) ∧
          (s.running k = c → t.seqState k c = 1 ∧ (t.ctx k c).bask = none))) ∧
    (∀ (k : CoreId) (c : CtxId) (w : BaskWait) (d : Nat), (s.ctx k.val c.val).bask = some w → w.deadline = some d →
      d ≤ s.chorusNs → w.entry = none → w.result = none → s.queueHas w.func w.queue = false →
      ∃ t, exec (.baskTimeout k c) s = .next t ∧ s.sameMem t ∧
        (if s.running k.val = c then t.seqState k.val c.val = 1 ∧ (t.ctx k.val c.val).bask = none ∧
            (w.rd ≠ 0 → t.sreg k.val c.val w.rd = 0x8000_0000)
          else (t.ctx k.val c.val).bask = some { w with result := some 0x8000_0000 })) ∧
    ∀ (k : CoreId) (f : IBits) (fn : Nat),
      let c := s.running k.val
      let u := s.atIssue k.val
      let rt := s.runReg k.val (fRA f)
      let off := bits (s.runReg k.val (fRB f)) 21 0
      let cfg := R.FE_Q_CFG fn (qId f)
      let ptr := R.FE_Q_PTR fn (qId f)
      let tail := u.fld ptr 31 16
      u.funcOf k.val c.val = some fn → u.bitOf cfg 31 = true → bits (s.runReg k.val (fRB f)) 63 22 = 0 → bits f 31 0 = 0 →
      off % 64 = 0 → off + 64 ≤ padSize → u.owns k.val c.val off 64 = true →
      (s.ready k.val [fRD f, fRA f, fRB f] → (bit f 40 = true → fRA f = 0) → bits rt 63 40 = 0 →
        ∃ t, exec (.bask k f) s = .next t ∧ t.seqState k.val c.val = 3 ∧ Advanced u t k.val [R.SEQ_STATE k.val c.val] ∧
          (t.ctx k.val c.val).bask = some ⟨u.epochOf (u.partOf k.val c.val), fn, qId f, fRD f, off,
            if bit f 40 then none else some (u.chorusNs + bits rt 39 0), none, none, u.fe.baskNo⟩) ∧
      ∀ (p : Nat) (v : State), s.ready k.val [fRD f, fRB f] → bit f 40 = false → fRA f = 0 → u.bitOf cfg 30 = true →
        u.partOf k.val c.val = some p → u.queueCount fn (qId f) < 2 ^ u.fld cfg 3 0 → u.readsClean k.val c.val off 64 →
        u.feWrite p (u.queueSlot fn (qId f) tail) (carried (u.winBytes k.val off 64)) = (v, 0) →
        ∃ t, exec (.qpost k f) s = .next t ∧ t.fld ptr 31 16 = (tail + 1) % 65536 ∧
          (fRD f ≠ 0 → t.sreg k.val c.val (fRD f) = BitVec.ofNat 64 tail) ∧ t.pc k.val c.val = s.runPc k.val + 8 ∧ v.sameMem t

/-- A fetched descriptor that passes R289 is taken in and HEAD advances, and a failed fetch stops the ring; a descriptor whose
conditions are met starts its kernel, or holds it for its target, on every core it names, in the running context on time and in
another late; a kernel of the internal ring starts in a free context; a held start starts at its target; a finished descriptor
leaves with its record; a chain read that its checks accept takes the successor in (R152, R236, R259, R260, R285, R290 to
R294). -/
def Obligations.DescriptorsRun : Prop :=
  ∀ (s : State),
    (∀ (fn : FuncId) (r : Fin 8) (p : Nat), s.partOfFunc fn.val = some p → s.ringState fn.val r.val = 1 →
      let h := s.fld (R.FE_SQ_HEAD fn.val r.val) 15 0
      h ≠ (s.ring fn.val r.val).tail →
      ((s.ringDescs fn.val r.val).filter (fun d => !d.chained && !d.begun)).length < 16 →
      (∀ b, s.descChecks p (descOf b s.fe.nextId fn.val r.val h (s.ring fn.val r.val).fetched false) = none →
        ∃ t x, exec (.descriptorFetch fn r (.bytes b)) s = .next t ∧ t.fe.descs = s.fe.descs ++ [x] ∧ x.id = s.fe.nextId ∧
          x.func = fn.val ∧ x.ring = r.val ∧ x.didx = h ∧ x.raw = slice b 0 64 ∧ x.started = false ∧ x.begun = false ∧
          t.fld (R.FE_SQ_HEAD fn.val r.val) 15 0 = (h + 1) % s.sqSize fn.val r.val % 65536 ∧ t.cores = s.cores ∧ s.sameMem t) ∧
      ∃ t, exec (.descriptorFetch fn r .error) s = .next t ∧ t.ringState fn.val r.val = 3 ∧
        t.bitOf (R.FE_RING_STAT fn.val r.val) 1 = true ∧ t.fe.descs = s.fe.descs ∧ t.cores = s.cores ∧ s.sameMem t) ∧
    (∀ (id : BitVec 64) (d : Desc) (p : Nat), s.desc id.toNat = some d → s.partOfFunc d.func = some p → d.kind = 1 →
      s.mayStart d = true → (s.part p).quar = none → s.heldBack d = false →
      let c := s.fld (R.MMU_PCFG p) 61 60
      (∀ k ∈ s.descCores p d, s.coreIdle k c = true ∧ s.coreRetires k = false) →
      ∃ t, exec (.kernelDispatch (.fetched id)) s = .next t ∧ ∀ k ∈ s.descCores p d,
        let kn (late : Bool) : Kernel := ⟨d.id, false, some p, (s.part p).epoch, false, late⟩
        ((∀ x, d.target = some x → x ≤ s.chorus) →
          (t.ctx k c).kernel = some (kn (d.target.isSome && decide ((s.running k).val ≠ c))) ∧ t.seqState k c = 1 ∧
          t.pc k c = d.entryOff % 2 ^ 22 ∧ (∀ i, i < 6 → t.sreg k c (i + 1) = d.args.getD i 0) ∧
          t.sreg k c 7 = BitVec.ofNat 64 (s.coreNumber p k)) ∧
        (∀ x, d.target = some x → s.chorus < x → (t.ctx k c).timed = some ⟨x, false, kn false, d.entryOff, d.args⟩ ∧
          (t.ctx k c).kernel = none)) ∧
    (∀ (b : List Byte) (c : CtxId),
      let raw := descOf b s.fe.nextId internalRing 0 0 s.fe.nextId false
      s.internalChecks raw = none → raw.lmode = 0 → s.freeCtx (s.namedCores raw) = some c →
      ∃ t, exec (.kernelDispatch (.internal b)) s = .next t ∧ ∀ k ∈ s.namedCores raw,
        (t.ctx k c.val).kernel = some ⟨s.fe.nextId, true, none, 0, false, false⟩ ∧ t.seqState k c.val = 1 ∧
          t.pc k c.val = raw.entryOff % 2 ^ 22 ∧ ∀ i, i < 6 → t.sreg k c.val (i + 1) = raw.args.getD i 0) ∧
    (∀ (k : CoreId) (c : CtxId) (w : TimedWait), (s.ctx k.val c.val).timed = some w → w.target ≤ s.chorus →
      s.running k.val = c → s.ringFull w.kernel = false → s.relocks (s.coreDie k.val) = false →
      ∃ t, exec (.timedStart k c) s = .next t ∧ t.seqState k.val c.val = 1 ∧ t.pc k.val c.val = w.entry % 2 ^ 22 ∧
        (t.ctx k.val c.val).kernel = some { w.kernel with late := w.late } ∧ (t.ctx k.val c.val).timed = none ∧
        ∀ i, i < 6 → t.sreg k.val c.val (i + 1) = w.args.getD i 0) ∧
    (∀ (id : BitVec 64) (d : Desc), s.desc id.toNat = some d → d.func ≠ internalRing → d.barr = false → d.chain = false →
      ((d.kind = 1 ∧ d.started = true ∧ d.left = [] ∧ s.ringState d.func d.ring ≠ 4) ∨
        (d.kind ≠ 1 ∧ s.mayStart d = true ∧ ∀ x, d.target = some x → x ≤ s.chorus)) →
      ∃ t, exec (.descriptorComplete id) s = .next t ∧ t.fe.descs = s.fe.descs.filter (fun e => e.id ≠ d.id) ∧
        t.cores = s.cores ∧ s.sameMem t ∧
        (d.quiet = true → d.late = false → t.hostOut = s.hostOut) ∧
        (d.quiet = false → s.bitOf (R.FE_RING_STAT d.func d.ring) 2 = false → (s.ring d.func d.ring).held = [] →
          ∃ b, t.hostOut = s.hostOut ++ [(d.func, (s.reg (R.FE_CQ_BASE d.func d.ring)).toNat +
            32 * s.fld (R.FE_CQ_PTR d.func d.ring) 15 0, b)] ∧ leAt b 0 2 = 0)) ∧
    ∀ (fn : FuncId) (r : Fin 8) (p order succ : Nat) (pred : Desc) (rest : List (Nat × Nat × Desc)) (v : State)
        (b : List TByte), (s.ring fn.val r.val).chainRd = (order, succ, pred) :: rest → s.partOfFunc fn.val = some p →
      s.ringState fn.val r.val = 1 →
      s.feRead p ((s.reg (R.FE_CHAIN_BASE fn.val)).toNat + 64 * succ) = (v, b, 0) →
      v.descChecks p (descOf (clean b) v.fe.nextId fn.val r.val succ order true) = none →
      ∃ t x, exec (.chainRead fn r) s = .next t ∧ t.fe.descs = v.fe.descs ++ [x] ∧ x.id = v.fe.nextId ∧ x.chained = true ∧
        x.didx = succ ∧ x.order = order ∧ x.hold = v.namedCores pred ∧ x.raw = slice (clean b) 0 64 ∧ v.sameMem t

/-- An arrival that completes a step at the barrier root completes it, with a notice to every other member, and any other is
recorded; an older neighbour's arrival on another chip goes on to the root; a completion notice makes the descriptors that wait
for its step ready; one that is not completed in time, with no arrival in the same tick, fails its descriptor with GS_0A08 (R273, R274, R275). -/
def Obligations.StepBarriers : Prop :=
  ∀ (g : GroupId) (s : State),
    (∀ (member : BitVec 14) (step : BitVec 32), s.barGroup g.val = true → s.barRoot g.val = some s.chipId →
      (s.lfMembers g.val).any (fun m => m.2 == member.toNat) = true →
      let done := s.fld (R.CHR_STEP g.val) 63 32
      let last (m : Nat) : Nat := if m = member.toNat then step.toNat
        else ((s.chr.arrivals.find? (fun e => e.1 == g.val && e.2.1 == m)).map (fun e => e.2.2)).getD 0
      ∃ t, exec (.arrivalMessage g member step) s = .next t ∧ (g.val, member.toNat, step.toNat) ∈ t.chr.arrivals ∧
        t.cores = s.cores ∧ s.sameMem t ∧
        ((∀ m ∈ s.lfMembers g.val, done < last m.2) → done + 1 < 2 ^ 32 → t.fld (R.CHR_STEP g.val) 63 32 = done + 1 ∧
          ∀ m ∈ s.lfMembers g.val, m.2 ≠ s.chipId → Packet.ctl 2 m.2 [g.val, done + 1,
            s.chorusNs + s.fld R.CHR_BARRIER_CFG 15 0, s.treeRoot] ∈ t.net) ∧
        ((∃ m ∈ s.lfMembers g.val, last m.2 ≤ done) → t.regs = s.regs ∧ t.fe = s.fe)) ∧
    (∀ (member : BitVec 14) (step : BitVec 32) (root gen : Nat), s.barGroup g.val = true → s.barRoot g.val = some root →
      root ≠ s.chipId → (gen, member.toNat) ∈ s.lfMembers g.val → gen ≠ 3 →
      exec (.arrivalMessage g member step) s =
        .next (s.setNet (s.net ++ [.ctl 1 root [g.val, member.toNat, step.toNat]]))) ∧
    (∀ (step : BitVec 32) (inst : BitVec 64) (tree : BitVec 14), s.barGroup g.val = true →
      ∃ t, exec (.barrierNotice g step ⟨inst, tree⟩) s = .next t ∧
        t.fld (R.CHR_STEP g.val) 63 32 = max (s.fld (R.CHR_STEP g.val) 63 32) step.toNat ∧
        s.regsBut t [R.CHR_STEP g.val] ∧ t.cores = s.cores ∧ s.sameMem t ∧
        ∀ d ∈ t.fe.descs, d.lmode = 2 → d.bgrp = g.val → d.step ≤ step.toNat → d.ready = true) ∧
    ∀ (id : BitVec 64) (d : Desc) (at_ : Nat), s.desc id.toNat = some d → d.lmode = 2 → d.ready = false →
      s.fld (R.CHR_STEP d.bgrp) 63 32 < d.step →
      (s.chr.arrAt.find? (fun e => e.1 == d.bgrp && e.2.1 == d.step)) = some (d.bgrp, d.step, at_) →
      at_ + max 1 (s.fld R.CHR_BARRIER_CFG 31 16) * 1000000 ≤ s.ns → s.ringMode d.bgrp = false →
      s.pending.any (isArrival d.bgrp d.step) = false →
      ∃ t, exec (.barrierTimeout id) s = .next t ∧ t.fe.descs = s.fe.descs.filter (fun e => e.id ≠ d.id) ∧
        (s.variant.lf = true → t.fld (R.LF_GSTAT d.bgrp) 63 61 = 2) ∧ t.cores = s.cores ∧ s.sameMem t

/-- A stamped item of an old EPOCH is counted, and logged when the log takes it, and nothing else changes; a quarantine resets
its partition, takes its descriptors away, disables its rings and advances EPOCH (R302, R303, R307, R308). -/
def Obligations.LateAndQuarantine : Prop :=
  ∀ (s : State),
    (∀ m : Stamped, m.epoch ≠ (s.part m.part.val).epoch →
      ∃ t, exec (.lateMessage m) s = .next t ∧ t.fld (R.FE_LATE_CNT m.func.val) 31 0 =
          min (s.fld (R.FE_LATE_CNT m.func.val) 31 0 + 1) (2 ^ 32 - 1) ∧ s.regsBut t [R.FE_LATE_CNT m.func.val] ∧
        t.cores = s.cores ∧ s.sameMem t ∧ t.fe = s.fe ∧ t.net = s.net) ∧
    ∀ (p : PartId) (q : Cause), (s.part p.val).quar = some q →
      let f := s.fld (R.MMU_PCFG p.val) 59 54
      let c := s.fld (R.MMU_PCFG p.val) 61 60
      ∃ t, exec (.quarantine p) s = .next t ∧ (t.part p.val).quar = none ∧ (t.part p.val).epoch = (s.part p.val).epoch + 1 ∧
        (∀ k ∈ s.partCores p.val, (t.ctx k c).kernel = none ∧ (t.ctx k c).watches = [] ∧ (t.ctx k c).wait = none ∧
          ∀ e ∈ (t.core k).mq, e.ctx.val ≠ c) ∧
        ∀ r, r < 8 → t.bitOf (R.FE_RING_CFG f r) 31 = false ∧ t.ringDescs f r = []

/-! ## Register access (chapters 01, 02 and 20) -/

/-- A register write that is let through changes its register's fields by their access codes and no other register; one that
carries a 1 in a reserved bit is discarded whole and captured with GS_0012; RLD reads a register into RD and RST writes one; a
read of CHR_NOW latches its fraction for its agent (R13, R15, R164, R276). -/
def Obligations.RegisterAccess : Prop :=
  ∀ (s : State),
    (∀ (a : Agent) (addr : Addr) (wide : Bool) (v : Word64) (i : RegInfo), regInfo s.variant addr.toNat = some i →
      (s.accepts a addr.toNat wide v →
        (∃ o, blockOf addr.toNat = some (.mmu, o) ∨ blockOf addr.toNat = some (.chr, o) ∨
          (blockOf addr.toNat = some (.top, o) ∧ o ≠ 0xA20)) →
        ∃ t, exec (.registerWrite a addr wide v) s = .next t ∧ s.wrote t addr.toNat i v ∧ s.regsBut t [addr.toNat] ∧
          t.cores = s.cores ∧ s.sameMem t) ∧
      (s.regCheck a addr.toNat (if wide then 8 else 4) (some v) = 0 → s.regHeld addr.toNat = false →
        (∃ b o, blockOf addr.toNat = some (b, o) ∧ s.unitAbsent b o = false) → i.wide = wide →
        (wide = false → addr.toNat % 8 = 4 → wideAt s.variant (addr.toNat - 4) = false) →
        (if wide then v else v &&& 0xFFFF_FFFF) &&& ~~~ BitVec.ofNat 64 i.mask ≠ 0 →
        ∃ t, exec (.registerWrite a addr wide v) s = .next t ∧ s.regsBut t [R.TOP_REG_ERR, R.TOP_REG_ERR_CNT] ∧
          t.cores = s.cores ∧ s.sameMem t ∧
          t.fld R.TOP_REG_ERR_CNT 31 0 = min (s.fld R.TOP_REG_ERR_CNT 31 0 + 1) (2 ^ 32 - 1) ∧
          (s.reg R.TOP_REG_ERR = 0 → t.fld R.TOP_REG_ERR 63 48 = 0x0012 ∧ t.fld R.TOP_REG_ERR 47 0 = addr.toNat))) ∧
    (∀ (k : CoreId) (f : IBits), s.ready k.val [fRD f, fRA f] → bits f 43 32 = 0 → 4 ≤ fSize f →
      let c := (s.running k.val).val
      let u := s.atIssue k.val
      let a := u.effAddr k.val c f
      let v := s.runReg k.val (fRD f)
      a % fSize f = 0 →
      (u.answers (.core k) a (decide (fSize f = 8)) → ∃ t, exec (.rld k f) s = .next t ∧ t.runPc k.val = s.runPc k.val + 8 ∧
        u.sameMem t ∧ t.sreg k.val c (fRD f) = if fRD f = 0 then 0
          else BitVec.ofNat 64 ((u.regView (.core k) a).toNat % 2 ^ (8 * fSize f))) ∧
      (∀ i, regInfo u.variant a = some i → u.accepts (.core k) a (decide (fSize f = 8)) v →
        a ∈ [R.SEQ_STATE k.val c, R.MA_EXC k.val c, R.VE_XFLAGS k.val c] →
        ∃ t, exec (.rst k f) s = .next t ∧ u.wrote t a i v ∧ Advanced u t k.val [a])) ∧
    ∀ a : Agent, ∃ t, exec (.chrNowRead a) s = .next t ∧ t.fracOf a = BitVec.ofNat 64 (bits s.chorus 7 0) ∧
      (∀ b, b ≠ a → t.fracOf b = s.fracOf b) ∧ t.regs = s.regs ∧ t.cores = s.cores ∧ s.sameMem t

/-! ## Transfers and put groups (chapter 08) -/

/-- DGET, DPUT, PUT and PUTF that pass R211 join the DMA queue at their place in program order; a read of another core's
window leaves as a read, a write to one as a write with its bytes and its grant, and a put with its bytes, its control word
and its age (R208 to R212, R222). A transfer whose response has come, or whose bytes move without an error, leaves the queue
and sets its flag if it asks for one; what a DGET read is stored and what a DPUT writes is written; a response older than AGE is
discarded; one without a response in time, as TMO stood at its issue, completes with GS_0804, which SP_XFER_ERR_k takes if it
holds none (R206, R212, R213, R222, R231). -/
def Obligations.Transfers : Prop :=
  (∀ (k : CoreId) (f : IBits) (s : State), s.ready k.val [xRA f, xRB f, xRC f, xRG f] →
    let c := s.running k.val
    let u := s.atIssue k.val
    let ra := s.runReg k.val (xRA f)
    let rb := s.runReg k.val (xRB f)
    let off := bits rb 21 0
    let len := (s.runReg k.val (xRC f)).toNat
    let ctl := s.runReg k.val (xRG f)
    let issued (v t : State) (e : DmaEntry) : Prop := (t.core k.val).dq = (v.core k.val).dq ++ [e] ∧ v.sameMem t ∧
      t.pc k.val c.val = s.runPc k.val + 8 ∧ ∀ j d i, t.sreg j d i = v.sreg j d i
    bits rb 63 22 = 0 → len ≤ 16777216 → off + len ≤ padSize → u.owns k.val c.val off len = true →
    (∀ (v : State) (ps : List (Nat × Nat)), 1 ≤ len → xferReserved f true = false → xRG f = 0 →
      u.coreTranslate k.val c.val ra.toNat len false = (v, ps, 0) → v.coreAccess k c ps = 0 → v.flagBad k.val c.val f = false →
      u.dmaFull k.val = false →
      ∃ t, exec (.dget k f) s = .next t ∧ issued v t (v.dmaEntry k.val c .dget f ra.toNat ps off len 0) ∧
        t.net = (match v.homeOf k.val ps with
          | .window j => v.net ++ [.read ⟨v.self k c, v.bindingOf k.val c.val, BitVec.ofNat 22 (winOff (ps.headD (0, 0)).1),
              .bytes len, (v.core k.val).seqNo, 0, none⟩ j]
          | _ => v.net)) ∧
    (∀ (v : State) (ps : List (Nat × Nat)), 1 ≤ len → xferReserved f false = false →
      (if u.otherWindow k.val c.val ra.toNat then bits ctl 63 16 = 0 ∧ bits ctl 11 8 = 0 else xRG f = 0) →
      u.coreTranslate k.val c.val ra.toNat len true = (v, ps, 0) → v.coreAccess k c ps = 0 → v.flagBad k.val c.val f = false →
      u.dmaFull k.val = false → v.readsClean k.val c.val off len →
      ∃ t, exec (.dput k f) s = .next t ∧ issued v t (v.dmaEntry k.val c .dput f ra.toNat ps off len ctl) ∧
        t.net = (match v.homeOf k.val ps with
          | .window j => v.net ++ [.write ⟨v.self k c, v.bindingOf k.val c.val, false, BitVec.ofNat 4 (bits ctl 15 12),
              BitVec.ofNat 8 (bits ctl 7 0), BitVec.ofNat 22 (winOff (ps.headD (0, 0)).1), carried (v.winBytes k.val off len),
              (v.core k.val).seqNo, none⟩ j]
          | _ => v.net)) ∧
    (xferReserved f false = false → bits ra 49 32 = 0 → bits ctl 50 48 = 0 → bits ctl 11 8 = 0 → bits ra 21 0 + len ≤ padSize →
      u.routable (bits ra 63 50) = true → u.flagBad k.val c.val f = false → u.dmaFull k.val = false →
      (0 < len → u.readsClean k.val c.val off len) →
      let sent (final : Bool) (t : State) : Prop :=
        issued u t (u.dmaEntry k.val c (if final then .putf else .put) f ra.toNat [] off len ctl) ∧
        t.net = u.net ++ [.put ⟨u.self k c, u.jobOf k.val c.val, BitVec.ofNat 10 (bits ra 31 22), BitVec.ofNat 22 (bits ra 21 0),
          ctl, final, carried (u.winBytes k.val off len), u.stamp, (u.core k.val).seqNo⟩ (bits ra 63 50)]
      (1 ≤ len → bits ctl 63 51 = 0 → bits ctl 27 16 = 0 → ∃ t, exec (.put k f) s = .next t ∧ sent false t) ∧
      ∃ t, exec (.putf k f) s = .next t ∧ sent true t)) ∧
  ∀ (k : CoreId) (id : BitVec 64) (s : State) (e : DmaEntry),
    (s.core k.val).dq.find? (fun e => e.seq == id.toNat) = some e →
    let left (v t : State) : Prop := (t.core k.val).dq = (v.core k.val).dq.erase e
    let now (v : State) : Prop := ∀ p, v.partOf k.val e.ctx.val = some p → e.epoch = (v.part p).epoch
    let here (v : State) : Prop := e.resp = none ∧ v.pieceStacks e.pieces = false ∧ (v.homeOf k.val e.pieces = .hbm ∨
      (v.homeOf k.val e.pieces = .own ∧ v.owns k.val e.ctx.val (winOff (e.pieces.headD (0, 0)).1) e.len = true))
    let reply : Packet → Bool := answersXfer (s.self k e.ctx) e.seq
    (∀ (st : Status) (age : BitVec 24), s.tripped = false → e.kind ≠ .dget → s.answered k.val e = true → e.status = 0 → now s →
      ((s.farPut e = false ∧ e.resp = some 0) ∨
        (s.farPut e = true ∧ s.net.any reply = false ∧ st = 0 ∧ s.tooOld k.val age.toNat = false ∧
          s.olderWay (e.remote / 2 ^ 50) = false)) →
      ∃ t, exec (.transferComplete k id ⟨st, age⟩) s = .next t ∧ left s t ∧ s.sameMem t ∧
        ∀ n, t.flag k.val n = (s.flag k.val n || (e.fen && decide (n = e.flag)))) ∧
    (∀ (st : Status) (age : BitVec 24), s.tripped = false → s.farPut e = true → s.net.any reply = false →
      s.olderWay (e.remote / 2 ^ 50) = false → s.tooOld k.val age.toNat = true →
      exec (.transferComplete k id ⟨st, age⟩) s = .next s) ∧
    (∀ (st : Status) (age : BitVec 24) (v : State) (d : List TByte) (q : Nat), s.tripped = false → e.kind = .dget →
      ((here s ∧ s.dgetRead k.val e.ctx e.nc e.pieces = (v, d, 0)) ∨
        (s.answered k.val e = true ∧ e.resp = some 0 ∧ e.data = d ∧ d ≠ [] ∧ v = s)) →
      now v → v.owns k.val e.ctx.val e.off d.length = true → v.phys k.val = some q → v.mergeable q e.off d.length →
      ∃ t, exec (.transferComplete k id ⟨st, age⟩) s = .next t ∧ left v t ∧ v.stored t q e.off d ∧ t.hbm = v.hbm ∧
        (e.fen = true → t.flag k.val e.flag = true)) ∧
    (∀ (st : Status) (age : BitVec 24) (x v : State) (d : List TByte), s.tripped = false → e.kind = .dput → here s →
      s.rowRead k.val e.ctx.val e.off e.len = (x, d, 0) → x.piecesWrite d e.pieces = (v, 0) → now v →
      ∃ t, exec (.transferComplete k id ⟨st, age⟩) s = .next t ∧ left v t ∧ v.sameMem t ∧
        (e.fen = true → t.flag k.val e.flag = true)) ∧
    ((s.answered k.val e = true ∨ s.homeOf k.val e.pieces = .hbm) → e.resp = none → s.net.any reply = false → now s →
      e.issued + e.tmo ≤ s.ns →
      let r := R.SP_XFER_ERR k.val e.ctx.val
      ∃ t, exec (.xferTimeout k id) s = .next t ∧ left s t ∧ s.sameMem t ∧
        t.fld r 63 48 = (if s.fld r 63 48 = 0 then 0x0804 else s.fld r 63 48) ∧
        t.fld r 31 0 = min (s.fld r 31 0 + 1) (2 ^ 32 - 1) ∧ s.regsBut t [r])

/-- A remote write of a live grant's own source and generation lands in its granted units and is answered, and one without such
a grant is counted, dropped and answered with GS_080C; a processor's write through a physical-core window lands at its
position (R40); a remote read that its partition owns is answered with its bytes, and a remote COUNT or CCOUNT changes its counter
and gives the old value to the core that asked (R181, R191, R194, R197). -/
def Obligations.RemoteAccesses : Prop :=
  ∀ (k : CoreId) (s : State) (q : Nat), s.shut k.val = false → s.phys k.val = some q →
    (∀ m : WriteMsg, m.diag = none → s.inboundAccess k.val m.off.toNat m.data.length m.part = 0 →
      let ok := (s.core k.val).grantOk m.tag.toNat m.gen m.src m.lf m.off.toNat m.data.length
      let rest := s.net.erase (.write m k.val)
      (ok = true → s.mergeable q m.off.toNat m.data.length →
        ∃ t, exec (.remoteWrite k m) s = .next t ∧ s.stored t q m.off.toNat m.data ∧ t.hbm = s.hbm ∧ t.regs = s.regs ∧
          (m.lf = true → t.net = rest) ∧
          (m.lf = false → m.src.chip.toNat ≠ s.chipId → t.net = rest ++ [.resp m.src m.xfer 0 0 s.stamp])) ∧
      (ok = false → ∃ t, exec (.remoteWrite k m) s = .next t ∧ s.sameMem t ∧ s.regsBut t [R.SP_DROP_CNT k.val] ∧
        t.fld (R.SP_DROP_CNT k.val) 31 0 = min (s.fld (R.SP_DROP_CNT k.val) 31 0 + 1) (2 ^ 32 - 1) ∧
        (m.lf = false → m.src.chip.toNat ≠ s.chipId → t.net = rest ++ [.resp m.src m.xfer 0x080C 0 s.stamp]))) ∧
    (∀ (m : WriteMsg) (i : ProcId) (p : PhysId), m.diag = some (.fw i, p) →
      s.memAccess (.fw i) (physAddr p.val m.off.toNat) m.data.length = 0 →
      s.regionOf (physAddr p.val m.off.toNat) m.data.length = some (.phys p.val) →
      winOff (physAddr p.val m.off.toNat) = m.off.toNat → s.mergeable p.val m.off.toNat m.data.length →
      ∃ t, exec (.remoteWrite k m) s = .next t ∧ s.stored t p.val m.off.toNat m.data ∧ t.hbm = s.hbm ∧ t.fw.ansSt = 0) ∧
    (∀ (m : ReadMsg) (c n : Nat), m.diag = none → m.op = .bytes n → s.inboundAccess k.val m.off.toNat n m.part = 0 →
      s.readsClean k.val c m.off.toNat n → m.src.chip.toNat = s.chipId →
      ∃ t, exec (.remoteRead k m) s = .next t ∧ s.sameMem t ∧ t.regs = s.regs ∧
        (t.core m.src.core.val).dq = (s.core m.src.core.val).dq.map (fun e =>
          if e.ctx = m.src.ctx ∧ e.seq = m.xfer ∧ e.resp = none then
            { e with resp := some 0, data := carried (s.winBytes k.val m.off.toNat n) } else e)) ∧
    ∀ (m : ReadMsg) (c n : Nat) (ex : Option Word64) (inc : Word64) (w : CountWait), m.diag = none →
      m.op = (match ex with | some x => .ccount n x inc | none => .count n inc) → (n = 4 ∨ n = 8) → m.off.toNat % n = 0 →
      s.inboundAccess k.val m.off.toNat n m.part = 0 → s.readsClean k.val c m.off.toNat n →
      (s.ctx m.src.core.val m.src.ctx.val).counts.find? (fun w => w.seq == m.xfer) = some w → w.rd ≠ 0 →
      let old := leNat (s.winBytes k.val m.off.toNat n)
      let new := match ex with
        | some x => if x.toNat % 2 ^ (8 * n) = old then (old + inc.toNat) % 2 ^ (8 * n) else old
        | none => (old + inc.toNat) % 2 ^ (8 * n)
      ∃ t, exec (.remoteRead k m) s = .next t ∧ s.stored t q m.off.toNat (carried (leBytes n new)) ∧ t.hbm = s.hbm ∧
        t.sreg m.src.core.val m.src.ctx.val w.rd = BitVec.ofInt 64 (signed (8 * n) old)

/-- A put that passes R218 in normal mode lands and counts as landed in its group's OPEN entry, or as a FINAL is held there; a
FINAL that is due with every member landed closes its entry, sets DFLAG and with REL returns the grant that it was sent under,
if that still stands, and with a failed member closes it as failed; an entry held OPEN for HOLD closes as failed (R217 to R221,
R230). -/
def Obligations.PutGroups : Prop :=
  ∀ (k : CoreId) (s : State),
    (∀ (m : PutMsg) (b : Option Nat) (c q : Nat), s.target m.job m.core.toNat = .ok (b, k.val) → s.shut k.val = false →
      s.phys k.val = some q → s.putCtx k.val m.off.toNat = some c → s.putChecks k.val c b m = none →
      s.bitOf (R.SP_PG_CFG k.val c) 31 = false → s.mergeable q m.off.toNat m.data.length →
      let was : Nat × Nat := match (s.ctx k.val c).group (ctlGroup m.ctl) with
        | some e => if e.st = .opened then (e.landed, e.failed) else (0, 0)
        | none => (0, 0)
      ∃ t e, exec (.putArrival k m) s = .next t ∧ s.stored t q m.off.toNat m.data ∧ t.hbm = s.hbm ∧ t.regs = s.regs ∧
        (t.ctx k.val c).group (ctlGroup m.ctl) = some e ∧ e.st = .opened ∧ e.failed = was.2 ∧
        (m.final = false → e.landed = was.1 + 1 ∧
          (m.src.chip.toNat ≠ s.chipId → t.net = s.net.erase (.put m s.chipId) ++ [.resp m.src m.tag 0 0 s.stamp])) ∧
        (m.final = true → e.landed = was.1 ∧ e.final = some ⟨m.src, ctlExpect m.ctl, ctlDflag m.ctl, ctlRel m.ctl,
          ctlTag m.ctl, ctlCgen m.ctl, false, m.tag⟩)) ∧
    ∀ (c : CtxId) (g : BitVec 16) (e : Group), (s.ctx k.val c.val).group g.toNat = some e → e.ggen < 16 →
      let failed (st : Status) (t : State) : Prop := s.sameMem t ∧
        (∃ x, (t.ctx k.val c.val).group g.toNat = some x ∧ x.st = .closed ∧ x.final = none) ∧
        s.regsBut t [R.SP_PG_ERR k.val c.val] ∧
        (s.fld (R.SP_PG_ERR k.val c.val) 63 48 = 0 → t.fld (R.SP_PG_ERR k.val c.val) 63 48 = st.toNat)
      (∀ h, e.final = some h → e.st = .opened → h.expect ≤ e.landed + e.failed →
        ∃ t, exec (.finalApply k c g) s = .next t ∧
          (e.failed = 0 → e.landed = h.expect → h.ue = false → t.flag k.val h.dflag = true ∧
            (∃ x, (t.ctx k.val c.val).group g.toNat = some x ∧ x.st = .closed ∧ x.final = none) ∧
            (if h.rel && (s.core k.val).grantIs h.tag h.cgen h.src then ((t.core k.val).grant h.tag).used = false
              else (t.core k.val).grants = (s.core k.val).grants) ∧
            s.regsBut t [R.FLG_STATE k.val (h.dflag / 64)] ∧ s.sameMem t) ∧
          (h.ue = false → (e.failed ≠ 0 ∨ e.landed ≠ h.expect) → failed 0x0809 t)) ∧
      (e.st = .opened → e.due = false → e.openedAt + e.hold ≤ s.ns →
        ∃ t, exec (.groupHoldTimeout k c g) s = .next t ∧ failed 0x080A t)

/-! ## Chorus (chapter 10) -/

/-- On an empty queue a step is one nanosecond, with one TCLK edge unless the trim has gained or lost one: at an edge Chorus takes
0x100, or 0x101 or 0x0FF on a slew edge, of which at most one comes in every 16 edges; and while no change of a die's CCLK is due
nothing but the discipline's counts and the elapsed time changes with it (R253, R257; that a step on an empty queue is a
nanosecond, and how the trim spreads its edges, are the model's choices: log entries 1 and 112). -/
def Obligations.EmptyQueueTicks : Prop :=
  ∀ s : State, s.pending = [] →
    let x := s.chr.phase + s.chr.trim
    let slews := s.chr.slewWait = 0 ∧ s.chr.slew ≠ 0
    (-(2 ^ 32) < x → x < 2 ^ 32 →
      (∀ d, d < 2 → s.tripped = true ∨ s.ns + 1 < (s.die d).due ∨ (s.die d).phase = 0 ∨ (s.die d).phase = 3) →
      ∃ t c, step s = .next t ∧ t = { s with chorus := t.chorus, ns := s.ns + 1, chr := c } ∧ c.phase = x ∧
        (slews → 0 < s.chr.slew → t.chorus = s.chorus + 0x101 ∧ c.slew = s.chr.slew - 1 ∧ c.slewWait = 15) ∧
        (slews → s.chr.slew < 0 → t.chorus = s.chorus + 0x0FF ∧ c.slew = s.chr.slew + 1 ∧ c.slewWait = 15) ∧
        (¬ slews → t.chorus = s.chorus + 0x100 ∧ c.slew = s.chr.slew ∧ c.slewWait = s.chr.slewWait - 1)) ∧
    (2 ^ 32 ≤ x → s.chr.slew = 0 → ∃ t, step s = .next t ∧ t.chorus = s.chorus + 0x200 ∧ t.ns = s.ns + 1 ∧
      t.chr.phase = x - 2 ^ 32) ∧
    (x ≤ -(2 ^ 32) → ∃ t, step s = .next t ∧ t.chorus = s.chorus ∧ t.ns = s.ns + 1 ∧ t.chr.phase = x + 2 ^ 32)

/-- The discipline moves through its states as R264's table says: on beacons of the parent and the backup port, on their
loss, on measurements beyond and within 20 ns, on the expiry of HOLDOVER, on sync edges and their loss at a root, and on the
loss of SYSCLK; a beacon leaves each port that carries them, with the timestamps of the last one received there; HOLDOVER keeps
the bound of the last LOCKED (R261 to R265, R518, R521). -/
def Obligations.Discipline : Prop :=
  ∀ s : State,
    let child := s.fld R.CHR_CFG 31 30 = 3
    let parent := s.fld R.CHR_CFG 29 28
    let enters (n : Nat) (t : State) : Prop := t.chrState = n ∧ s.sameMem t ∧ t.cores = s.cores ∧ t.chorus = s.chorus
    (∀ (p : Fin 4) (m : Beacon), child → m.state = 2 →
      (p.val = parent → (s.chrState = 0 ∨ s.chrState = 3 ∨ s.chrState = 4) →
        ∃ t, exec (.beaconReceive p m) s = .next t ∧ enters 1 t ∧ t.bitOf R.CHR_STATE 28 = false) ∧
      (p.val ≠ parent → s.bitOf R.CHR_CFG 27 = true → p.val = s.fld R.CHR_CFG 26 25 → s.chrState = 3 →
        ∃ t, exec (.beaconReceive p m) s = .next t ∧ enters 1 t ∧ t.bitOf R.CHR_STATE 28 = true) ∧
      (∀ t3 t4 : Nat, p.val = s.parentPort → s.chrState = 2 → m.resent = false → m.echo = some (t3, t4) →
        let ms := (beaconOffset m.sent s.chorus.toNat t3 t4 :: s.chr.meas).take 16
        ∃ t, exec (.beaconReceive p m) s = .next t ∧
          t.chr.rcvd.head? = some ⟨p.val, m.sent, s.chorus.toNat⟩ ∧
          t.chr.delay = beaconDelay m.sent s.chorus.toNat t3 t4 ∧
          ((∀ y ∈ ms, 20 * 256 < y) → enters 1 t) ∧
          ((∀ y ∈ ms, -(20 * 256) ≤ y ∧ y ≤ 20 * 256) → enters 2 t ∧ t.chr.meas = ms ∧
            t.fld R.CHR_STATE 15 0 = min 0xFFFF (m.ebound + 2) % 2 ^ 16))) ∧
    (∀ (p : Fin 4) (m : Beacon), child → m.state ≠ 2 → p.val = s.parentPort → (s.chrState = 1 ∨ s.chrState = 2) →
      ∃ t, exec (.beaconReceive p m) s = .next t ∧ enters 3 t ∧ t.chr.slew = 0) ∧
    (∀ (p : Fin 4) (l : Nat), s.beaconLink p.val = some l → s.beaconPort p.val = true →
      (∀ b, s.chr.sent.find? (fun b => b.port == p.val) = some b → b.sentAt + 1000 ≤ s.ns) →
      ∃ t b, exec (.beaconSend p) s = .next t ∧ t.chr.sent.head? = some b ∧ b.port = p.val ∧ b.link = l ∧
        b.time = s.chorus ∧ b.state = s.chrState ∧ b.echo = (s.chr.rcvd.find? (fun x => x.port == p.val)).map (fun x => (x.sent, x.at_)) ∧
        enters s.chrState t ∧ t.regs = s.regs) ∧
    (child → (s.chrState = 1 ∨ s.chrState = 2) → s.chr.lastBcn + 16000 ≤ s.ns →
      ∃ t, exec .beaconLoss s = .next t ∧ enters 3 t ∧ t.chr.slew = 0 ∧ t.chr.heldEb = s.chr.lockEb) ∧
    (s.chrState = 3 → s.chr.holdAt + 1000000000 ≤ s.ns → ∃ t, exec .holdoverExpiry s = .next t ∧ enters 4 t ∧ t.chr.slew = 0) ∧
    (s.bitOf R.TOP_INPUT_STAT 31 = false →
      ∃ t, exec .sysclkLost s = .next t ∧ enters 4 t ∧ t.bitOf R.TOP_INPUT_STAT 31 = true) ∧
    (s.fld R.CHR_CFG 31 30 = 2 →
      (s.chrState = 2 → (∀ x, s.chr.lastSync = some x → x + 3000000000 ≤ s.ns) →
        ∃ t, exec .syncTimeout s = .next t ∧ enters 3 t) ∧
      ∀ inst : Chorus,
        let x := syncOffset (wrap 72 ((inst.toNat : Int) - (s.fld R.TOP_SYNC_CFG 23 0 : Nat)))
        (s.chrState = 2 → x.natAbs ≤ 20 * 256 → ∃ t, exec (.syncEdge inst) s = .next t ∧ enters 2 t ∧ t.chr.slew = -x ∧
          t.chr.lastSync = some s.ns) ∧
        (s.chrState = 2 → 20 * 256 < x.natAbs → x.natAbs ≤ 1000 * 256 →
          ∃ t, exec (.syncEdge inst) s = .next t ∧ enters 1 t) ∧
        (s.chrState = 1 → s.chr.lastSync = none → s.fld R.CHR_CFG 15 0 * 256 < x.natAbs →
          ∃ t, exec (.syncEdge inst) s = .next t ∧ t.chrState = 1 ∧ t.chr.slew = 0 ∧ t.chorus = addChorus s.chorus (-x)))

/-- COMMIT_AT with a consistent view and an instant to come is accepted and pending; at the instant every live register of its
scopes takes its shadow's value, CHR_CFG without LOAD and the windows' running generations aside; COMMIT_CANCEL before it and
PWR_COMMIT likewise (R266 to R272, R523). -/
def Obligations.Commits : Prop :=
  ∀ s : State,
    (∀ (cmd : Cmd) (args : List Byte), s.commands 0x30 cmd args → s.commitChecks args = none →
      s.chorus.toNat < leAt args 0 8 * 256 + leAt args 8 1 →
      ∃ t x, exec (.commitAt cmd) s = .next t ∧ t.chr.commit = some x ∧ x.target.toNat = leAt args 0 8 * 256 + leAt args 8 1 ∧
        x.scope = leAt args 0xC 4 ∧ x.lateOk = decide (leAt args 9 1 % 2 = 1) ∧ t.msgState cmd 1 ∧ t.regs = s.regs ∧
        t.cores = s.cores ∧ s.sameMem t) ∧
    (∀ x : Commit, s.chr.commit = some x →
      (x.target.toNat ≤ s.chorus.toNat → ∃ t, exec .commitApply s = .next t ∧ t.chr.commit = none ∧
        ∀ r ∈ maskRegs x.scope, r.1 ≠ R.CHR_CFG → (∀ p w, p < 4 → w < 8 → r.1 ≠ R.LNK_CWIN_B p w) → t.reg r.1 = s.reg r.2) ∧
      (s.chorus.toNat < x.target.toNat → ∀ (cmd : Cmd) (args : List Byte), s.commands 0x31 cmd args →
        ∃ t, exec (.commitCancel cmd) s = .next t ∧ t.chr.commit = none ∧ t.msgState cmd 2 ∧ t.cores = s.cores ∧ s.sameMem t ∧
          ∀ r ∈ maskRegs 63, t.reg r.1 = s.reg r.1)) ∧
    (s.sys.sb.waits = false → s.procState 1 = 2 → s.fwReady = true →
      let t0 := s.chorus.toNat + 1000000 * 256
      s.commitChecks (leBytes 8 (t0 / 256) ++ leBytes 1 t0 ++ leBytes 1 1 ++ leBytes 2 0 ++ leBytes 4 0b100000) = none →
      ∃ t x, exec .pwrCommit s = .next t ∧ t.chr.commit = some x ∧ x.scope = 0b100000 ∧ x.target.toNat = t0 % 2 ^ 72 ∧
        t.sys.sb.waits = true ∧ t.regs = s.regs ∧ t.cores = s.cores ∧ s.sameMem t)

/-! ## Links (chapter 12) -/

/-- A partner's pattern moves DETECT to HELLO, its hello HELLO to RATE, and its pattern RATE, EQUALIZE and ALIGN on; a phase
beyond its limit, and a loss of signal, end the attempt with their reasons, waits and counts; a retry enters DETECT, and 100 ms of
silence PARTNER_ABSENT unless a pattern comes in that tick; a link that passes VERIFY is UP on the lanes that trained, or in
MISMATCH where its port has come to another partner; ENABLE, DISABLE and RESTART do what R335 says. `ctl` is the write of LNK_CTL_l that an
operation is: OP, with MAXTRY and LANEMASK as they are (R321 to R323, R325, R335). -/
def Obligations.LinkTraining : Prop :=
  ∀ (l : LinkId) (s : State),
    let st := R.LNK_STAT l.val
    let ctl (op : Nat) : Word64 :=
      BitVec.ofNat 64 (op * 2 ^ 29 + s.fld (R.LNK_CTL l.val) 11 8 * 2 ^ 8 + s.fld (R.LNK_CTL l.val) 1 0)
    let gap := s.chipId % 64 * 16000
    (∀ (m : Hello) (p : Nat), s.variant.link l.val = true → (s.link l.val).untested = false → s.linkPort l.val = some p →
      ((s.linkState l.val = 1 ∨ s.linkState l.val = 4) → ∃ t, exec (.helloReceived l m) s = .next t ∧
        t.linkState l.val = 2 ∧ (t.link l.val).phase = 1 ∧ (t.link l.val).silence = none ∧ t.cores = s.cores ∧ s.sameMem t ∧
        t.sys.lnkOut = s.sys.lnkOut ++
          [.hello l.val s.chipId l.val (s.fld (R.LNK_PORT p) 12 11) (s.laneMask l.val)]) ∧
      (s.linkState l.val = 2 → 2 ≤ (s.link l.val).phase → (s.link l.val).phase ≤ 4 → (s.link l.val).resume = false →
        m.hello = false → ((s.link l.val).phase = 2 ∨ (s.link l.val).pass &&& m.lanes.toNat ≠ 0) →
        ∃ t, exec (.helloReceived l m) s = .next t ∧ t.linkState l.val = 2 ∧ t.regs = s.regs ∧
          (t.link l.val).phase = (s.link l.val).phase + 1 ∧ (t.link l.val).since = s.ns ∧ t.cores = s.cores ∧ s.sameMem t) ∧
      (s.linkState l.val = 2 → (s.link l.val).phase = 1 → m.hello = true →
        s.portPartner p = none → min m.gen.toNat (s.fld (R.LNK_PORT p) 12 11) ≠ 0 →
        ∃ t, exec (.helloReceived l m) s = .next t ∧ t.linkState l.val = 2 ∧ (t.link l.val).phase = 2 ∧
          (t.link l.val).pass = s.laneMask l.val &&& m.lanes.toNat ∧
          t.fld st 47 34 = m.chip.toNat ∧ t.fld st 33 30 = m.link.val ∧ t.fld st 29 28 = m.gen.toNat ∧
          t.fld st 59 58 = min m.gen.toNat (s.fld (R.LNK_PORT p) 12 11) ∧ t.cores = s.cores ∧ s.sameMem t)) ∧
    (∀ (ph : Fin 5) (limit reason : Nat), s.linkState l.val = 2 → (s.link l.val).resume = false →
      (s.link l.val).phase = ph.val + 1 → (ph.val + 1, limit, reason) ∈ [(1, 1000000, 2), (2, 100000, 6),
        (3, (if s.fld st 59 58 = 3 then 10000000 else 5000000), 3), (4, 1000000, 4), (5, 1000000, 5)] →
      (s.link l.val).since + limit ≤ s.ns →
      let n := min 255 (s.fld st 23 16 + 1)
      ∃ t, exec (.linkPhaseTimeout l ph) s = .next t ∧ t.fld st 15 8 = reason ∧ t.fld st 23 16 = n ∧ t.cores = s.cores ∧ s.sameMem t ∧
        t.fld st 59 58 = 0 ∧ (max 1 (s.fld (R.LNK_CTL l.val) 11 8) ≤ n → t.linkState l.val = 7) ∧
        (n < max 1 (s.fld (R.LNK_CTL l.val) 11 8) → t.linkState l.val = 2 ∧ (t.link l.val).phase = 6 ∧
          (t.link l.val).retryAt = s.ns + (min 16000000 (1000000 * 2 ^ (n - 1)) + gap))) ∧
    (s.linkState l.val = 2 → 1 ≤ (s.link l.val).phase → (s.link l.val).phase ≤ 5 → (s.link l.val).resume = false →
      ∃ t, exec (.lossOfSignal l) s = .next t ∧ t.fld st 15 8 = 1 ∧ t.fld st 23 16 = s.fld st 23 16 ∧
        (t.link l.val).phase = 6 ∧ (t.link l.val).silence = some s.ns ∧ (t.link l.val).retryAt = s.ns + (1000000 + gap) ∧
        s.regsBut t [st] ∧ t.cores = s.cores ∧ s.sameMem t) ∧
    ((s.linkState l.val = 1 ∨ s.linkState l.val = 4 ∨ (s.linkState l.val = 2 ∧ (s.link l.val).phase = 6)) →
      ∃ t, exec (.lossOfSignal l) s = .next t ∧ t.link l.val = { s.link l.val with silence := some s.ns } ∧ t.regs = s.regs ∧
        t.cores = s.cores ∧ s.sameMem t) ∧
    (s.linkState l.val = 2 → (s.link l.val).phase = 6 → (s.linkPort l.val).isSome = true → (s.link l.val).retryAt ≤ s.ns →
      ∃ t, exec (.trainingRetry l) s = .next t ∧ t.linkState l.val = 1 ∧ (t.link l.val).silence = (s.link l.val).silence ∧
        s.regsBut t [st] ∧ t.cores = s.cores ∧ s.sameMem t) ∧
    (∀ at_, (s.linkState l.val = 1 ∨ s.linkState l.val = 2 ∨ s.linkState l.val = 4) → (s.link l.val).silence = some at_ →
      at_ + 100000000 ≤ s.ns → s.pending.any (isHello l) = false → ∃ t, exec (.partnerAbsent l) s = .next t ∧ t.linkState l.val = 5 ∧
        (t.link l.val).silence = none ∧ s.regsBut t [st] ∧ t.cores = s.cores ∧ s.sameMem t) ∧
    (∀ (lanes : BitVec 2) (p : Nat), s.linkState l.val = 2 → (s.link l.val).phase = 5 → (s.link l.val).resume = false →
      (s.link l.val).since + 100000 ≤ s.ns → s.linkPort l.val = some p → lanes.toNat &&& (s.link l.val).pass ≠ 0 →
      ((∀ x, s.portPartner p = some x → x = (s.fld st 47 34, s.fld st 59 58)) →
        ∃ t, exec (.trainingComplete l lanes) s = .next t ∧ t.linkState l.val = 3 ∧ t.fld st 23 16 = 0 ∧
          t.fld st 57 56 = laneCount (lanes.toNat &&& (s.link l.val).pass) ∧ s.sameMem t) ∧
      ∀ x, s.portPartner p = some x → x ≠ (s.fld st 47 34, s.fld st 59 58) →
        ∃ t, exec (.trainingComplete l lanes) s = .next t ∧ t.linkState l.val = 8 ∧ t.fld st 15 8 = 7 ∧ t.cores = s.cores ∧
          s.sameMem t) ∧
    ∀ a : Agent,
      (s.accepts a (R.LNK_CTL l.val) false (ctl 1) → (s.linkState l.val = 0 ∨ s.linkState l.val = 7) →
        (s.linkPort l.val).isSome = true → (s.link l.val).untested = false →
        ∃ t, exec (.enable a l) s = .next t ∧ t.linkState l.val = 1 ∧ (t.link l.val).silence = some s.ns ∧
          t.fld st 23 16 = 0 ∧ t.cores = s.cores ∧ s.sameMem t) ∧
      (s.accepts a (R.LNK_CTL l.val) false (ctl 2) →
        ∃ t, exec (.disable a l) s = .next t ∧ t.linkState l.val = 0 ∧ (t.link l.val).unacked = [] ∧ s.sameMem t) ∧
      (s.accepts a (R.LNK_CTL l.val) false (ctl 3) → s.linkState l.val ≠ 0 → (s.linkPort l.val).isSome = true →
        (s.link l.val).untested = false →
        ∃ t, exec (.restart a l) s = .next t ∧ t.linkState l.val = 1 ∧ (t.link l.val).unacked = [] ∧
          (t.link l.val).silence = some s.ns ∧ t.fld st 23 16 = 0 ∧ s.sameMem t)

/-- A flit in sequence brings its packet and is acknowledged, one delivered before is acknowledged again without it, a bad one or
a gap is negatively acknowledged, and a negative
acknowledgement replays what is unacknowledged; a down event enters RETRAIN; a faulty lane is dropped; a link sleeps once every
flit is acknowledged, and wakes with the wake pattern; a reference clock's loss takes its bank's links down (R324 to R329,
R517). -/
def Obligations.LinksRun : Prop :=
  ∀ (l : LinkId) (s : State),
    let st := R.LNK_STAT l.val
    let ctl (op : Nat) : Word64 :=
      BitVec.ofNat 64 (op * 2 ^ 29 + s.fld (R.LNK_CTL l.val) 11 8 * 2 ^ 8 + s.fld (R.LNK_CTL l.val) 1 0)
    let quiet : Prop := ∀ p, s.linkPort l.val = some p → (s.port p).wait = [] ∧ (s.port p).again = []
    let asleep (t : State) : Prop := t.linkState l.val = 6 ∧ LnkOut.sleepSet l.val ∈ t.sys.lnkOut ∧ s.sameMem t
    let waking (t : State) : Prop := t.linkState l.val = 2 ∧ (t.link l.val).phase = 4 ∧ (t.link l.val).resume = true ∧
      (t.link l.val).silence = some s.ns ∧ t.sys.lnkOut = s.sys.lnkOut ++ [.wakePattern l.val] ∧ s.sameMem t
    (∀ (m : Flit) (p : Nat), s.linkState l.val = 3 → s.linkPort l.val = some p →
      let rx := (s.port p).rx
      (m.ok = false → ∃ t, exec (.flitReceive l m) s = .next t ∧ t.sys.lnkOut = s.sys.lnkOut ++ [.nak l.val rx] ∧
        (t.port p).rx = rx ∧ s.sameMem t) ∧
      (m.ok = true → m.seq.toNat = rx → ∃ t, exec (.flitReceive l m) s = .next t ∧ (t.port p).rx = (rx + 1) % 65536 ∧
        t.sys.lnkOut.getLast? = some (.ack l.val ((rx + 1) % 65536)) ∧ s.sameMem t ∧
        ∀ x, m.pkt = some x → ∃ y ∈ (t.port p).inq, y.pkt = x.pkt ∧ y.src = x.src ∧ y.dst = x.dst ∧
          y.inPort.map (fun q => q.val) = some p) ∧
      (m.ok = true → m.seq.toNat ≠ rx → 32768 ≤ (m.seq.toNat + 65536 - rx) % 65536 →
        ∃ t, exec (.flitReceive l m) s = .next t ∧ (t.port p).rx = rx ∧ (t.port p).inq = (s.port p).inq ∧
          t.sys.lnkOut.getLast? = some (.ack l.val rx) ∧ s.sameMem t) ∧
      (m.ok = true → m.seq.toNat ≠ rx → (m.seq.toNat + 65536 - rx) % 65536 < 32768 →
        ∃ t, exec (.flitReceive l m) s = .next t ∧ (t.port p).rx = rx ∧ t.sys.lnkOut.getLast? = some (.nak l.val rx) ∧
          s.sameMem t)) ∧
    (∀ (seq : BitVec 16) (p : Nat), s.linkState l.val = 3 → s.linkPort l.val = some p → (s.port p).wait = [] →
      (s.port p).again = [] → (s.link l.val).draining = false →
      let left := (s.link l.val).unacked.filter (fun x =>
        !decide (0 < (seq.toNat + 65536 - x.1) % 65536 ∧ (seq.toNat + 65536 - x.1) % 65536 ≤ 32768))
      ∃ t, exec (.flitNak l seq) s = .next t ∧ (t.link l.val).unacked = left ∧ s.sameMem t ∧
        t.fld (R.LNK_RETRY l.val) 31 0 = min (s.fld (R.LNK_RETRY l.val) 31 0 + left.length) (2 ^ 32 - 1)) ∧
    (∀ cause : DownCause, s.linkState l.val = 3 → (cause = .replays → 8 ≤ (s.link l.val).replays) →
      ∃ t, exec (.linkDown l cause) s = .next t ∧ t.linkState l.val = 4 ∧ (t.link l.val).unacked = [] ∧
        (t.link l.val).silence = some s.ns ∧
        t.fld (R.LNK_DOWN l.val) 31 0 = min (s.fld (R.LNK_DOWN l.val) 31 0 + 1) (2 ^ 32 - 1)) ∧
    (s.linkState l.val = 3 → s.upMask l.val = 3 →
      let one (gone : Nat) (t : State) : Prop := t.linkState l.val = 3 ∧ t.fld st 57 56 = 1 ∧
        (t.link l.val).dropped = (s.link l.val).dropped ||| gone ∧ (t.link l.val).degraded = true ∧ s.sameMem t
      (∀ lane : Fin 2, ∃ t, exec (.laneDrop l lane) s = .next t ∧ one (2 ^ lane.val) t ∧
        LnkOut.laneDrop l.val (3 - 2 ^ lane.val) ∈ t.sys.lnkOut) ∧
      ∀ kept : BitVec 2, (kept = 1 ∨ kept = 2) → ∃ t, exec (.laneDropReceived l kept) s = .next t ∧ one (3 - kept.toNat) t ∧
        (t.link l.val).proposed = false ∧
        ((s.link l.val).proposed = false → LnkOut.laneDrop l.val kept.toNat ∈ t.sys.lnkOut)) ∧
    (s.linkState l.val = 3 →
      ((s.link l.val).unacked = [] → quiet → ∃ t, exec (.sleepOrderedSet l) s = .next t ∧ asleep t) ∧
      ((s.link l.val).unacked ≠ [] → ∃ t, exec (.sleepOrderedSet l) s = .next t ∧ t.linkState l.val = 3 ∧
        (t.link l.val).draining = true ∧ t.regs = s.regs) ∧
      ∀ a : Agent, s.accepts a (R.LNK_CTL l.val) false (ctl 4) → s.chorusNeeds l.val = false →
        ((s.link l.val).unacked = [] → quiet → ∃ t, exec (.sleep a l true) s = .next t ∧ asleep t) ∧
        ∃ t, exec (.sleep a l false) s = .next t ∧ t.linkState l.val = 3 ∧ t.bitOf st 53 = true ∧ s.sameMem t) ∧
    (s.linkState l.val = 6 → (s.linkPort l.val).isSome = true → (∃ t, exec (.wakeDetect l) s = .next t ∧ waking t) ∧
      ∀ a : Agent, s.accepts a (R.LNK_CTL l.val) false (ctl 5) → ∃ t, exec (.wake a l) s = .next t ∧ waking t) ∧
    (s.linkState l.val = 5 → (s.linkPort l.val).isSome = true → ∃ t, exec (.wakeDetect l) s = .next t ∧ t.linkState l.val = 1 ∧ s.regsBut t [st]) ∧
    ∀ bank : Fin 2, l.val / 8 = bank.val →
      (s.linkState l.val = 3 → ∃ t, exec (.lnkclkLost bank) s = .next t ∧ t.linkState l.val = 4 ∧
        t.bitOf R.TOP_INPUT_STAT (29 - bank.val) = true) ∧
      (s.linkState l.val = 4 → ∃ t, exec (.lnkRefclkReturn bank) s = .next t ∧ t.linkState l.val = 1 ∧ s.sameMem t)

/-- A packet for this chip goes to its inbound path; one for another leaves on a link of its output port, or of its route's, that
takes it and no packet of its channel waiting before it, or waits there, and is dropped with GS_0C04 for its sender when HOLD ends; an older partner's write becomes a put of its window and
its group end a PUTF of the next generation; a bridge counts failed replays and fails at sixteen (R20, R316 to R319, R332). -/
def Obligations.Routing : Prop :=
  ∀ s : State,
    (∀ m : NetPkt, m.dst.toNat ≠ s.chipId →
      let net := if m.inPort.isNone then s.net.erase m.pkt else s.net
      (∀ p x, s.hop m = some (p, x) →
        let m' : NetPkt := { m with pkt := x, crossed := s.hopCrossed p m }
        (∀ chip, s.openLinks p (chanOf m') ≠ [] → (∀ e ∈ (s.port p).wait, chanOf e.1 ≠ chanOf m') → s.portPartner p = some (chip, 3) →
          ∃ t l, exec (.packetRoute m) s = .next t ∧ l ∈ s.openLinks p (chanOf m') ∧ t.net = net ∧ t.regs = s.regs ∧
            (t.link l).unacked = (s.link l).unacked ++ [((s.port p).tx, some m')] ∧
            t.sys.lnkOut = s.sys.lnkOut ++ [.flit l (s.port p).tx (some m')] ∧
            (t.port p).tx = ((s.port p).tx + 1) % 65536 ∧ t.cores = s.cores ∧ s.sameMem t) ∧
        (s.openLinks p (chanOf m') = [] → ∃ t, exec (.packetRoute m) s = .next t ∧ t.net = net ∧
          (t.port p).wait = (s.port p).wait ++ [(m', s.ns)] ∧ t.cores = s.cores ∧ s.sameMem t)) ∧
      (s.hop m = none → ∃ t, exec (.packetRoute m) s = .next t ∧
        t.fld R.LNK_DROP_CNT 31 0 = min (s.fld R.LNK_DROP_CNT 31 0 + 1) (2 ^ 32 - 1) ∧ s.regsBut t [R.LNK_DROP_CNT] ∧
        t.cores = s.cores ∧ s.sameMem t) ∧
      ∀ p : Fin 4, ∃ t, exec (.transitForward p m) s = .next t ∧ exec (.packetRoute { m with inPort := some p }) s = .next t) ∧
    (∀ m : NetPkt, m.dst.toNat = s.chipId → onRoute m.pkt = false → exec (.packetRoute m) s = .next (match m.inPort with
      | none => s
      | some q => (s.modPort q.val (fun x => { x with inq := x.inq.erase m })).inject m.pkt)) ∧
    (∀ (p : Fin 4) (m : NetPkt) (at_ : Nat), s.upLinks p.val = [] → at_ + s.holdNs p.val ≤ s.ns →
      let dropped (t : State) : Prop := t.fld R.LNK_DROP_CNT 31 0 = min (s.fld R.LNK_DROP_CNT 31 0 + 1) (2 ^ 32 - 1) ∧
        (∀ x c, m.pkt = .put x c → t.net = s.net ++ [.resp x.src x.tag 0x0C04 0 s.stamp]) ∧ t.cores = s.cores ∧ s.sameMem t
      (∀ r, (s.port p.val).again = [] → (s.port p.val).wait = (m, at_) :: r →
        ∃ t, exec (.portHoldExpiry p) s = .next t ∧ (t.port p.val).wait = r ∧ dropped t) ∧
      ∀ q r, (s.port p.val).again = ((q, some m), at_) :: r →
        ∃ t, exec (.portHoldExpiry p) s = .next t ∧ (t.port p.val).again = ((q, none), at_) :: r ∧ dropped t) ∧
    (∀ (p : Fin 4) (addr : BitVec 48) (data : List Byte),
      let off := addr.toNat % 0x40_0000
      (∀ w, s.cwin p.val addr.toNat = some w → off + data.length ≤ padSize →
        Sparse.get (fun _ => 0) (s.port p.val).mapped w < 4095 →
        ∃ t, exec (.compatWrite p addr data) s = .next t ∧ t.net = s.net ++ [.put (s.windowPut p w off false (carried data)) s.chipId] ∧
          Sparse.get (fun _ => 0) (t.port p.val).mapped w = Sparse.get (fun _ => 0) (s.port p.val).mapped w + 1 ∧
          t.regs = s.regs ∧ t.cores = s.cores ∧ s.sameMem t) ∧
      ((s.cwin p.val addr.toNat = none ∨ ∃ w, s.cwin p.val addr.toNat = some w ∧
          (padSize < off + data.length ∨ 4095 ≤ Sparse.get (fun _ => 0) (s.port p.val).mapped w)) →
        ∃ t, exec (.compatWrite p addr data) s = .next t ∧ t.net = s.net ∧
        t.fld R.LNK_COMPAT_DROP_CNT 31 0 = min (s.fld R.LNK_COMPAT_DROP_CNT 31 0 + 1) (2 ^ 32 - 1) ∧
        s.regsBut t [R.LNK_COMPAT_DROP_CNT] ∧ t.cores = s.cores ∧ s.sameMem t)) ∧
    (∀ (p : Fin 4) (w : Fin 8), s.bitOf (R.LNK_CWIN_A p.val w.val) 63 = true →
      ∃ t, exec (.compatGroupEnd p w) s = .next t ∧ t.net = s.net ++ [.put (s.windowPut p w.val 0 true []) s.chipId] ∧
        t.fld (R.LNK_CWIN_B p.val w.val) 3 0 = (s.fld (R.LNK_CWIN_B p.val w.val) 3 0 + 1) % 16 ∧
        Sparse.get (fun _ => 0) (t.port p.val).mapped w.val = 0 ∧ s.regsBut t [R.LNK_CWIN_B p.val w.val] ∧
        t.cores = s.cores ∧ s.sameMem t) ∧
    ∀ b : Fin 3, (∀ ok, ∃ t, exec (.bridgeFlitReplay b ok) s = .next t ∧
        t.bridgeFails b.val = (if ok then 0 else min 16 (s.bridgeFails b.val + 1)) ∧ t.regs = s.regs ∧ t.cores = s.cores ∧ s.sameMem t) ∧
      (16 ≤ s.bridgeFails b.val → b.val ∉ s.sys.deadBr → ∃ t, exec (.bridgeFailed b) s = .next t ∧
        t.sys.deadBr = s.sys.deadBr ++ [b.val] ∧ t.regs = s.regs ∧ t.cores = s.cores ∧ s.sameMem t)
/-! ## The Leapfrog engine (chapter 13) -/

/-- A doorbell that R344 accepts announces descriptors and one that it refuses sets DBERR; RESUME makes a STOPPED channel
ACTIVE; EN 0 to 1 sets HEAD and TAIL to 0, and EN = 0 leaves nothing outstanding that has not started (R344, R373). -/
def Obligations.LeapfrogChannels : Prop :=
  ∀ (a : Agent) (ch : ChanId) (s : State),
    let cfg := R.LF_CH_CFG ch.val
    let ptr := R.LF_CH_PTR ch.val
    let n := s.lfSize ch.val
    let head := s.lfHead ch.val
    let tail := s.lfTail ch.val
    (∀ v : BitVec 32, s.accepts a (R.LF_CH_DB ch.val) false (BitVec.ofNat 64 v.toNat) →
      let x := bits v 15 0
      let fits : Prop := s.bitOf cfg 31 = true ∧ x < n ∧ (tail + n - head) % n + (x + n - tail) % n ≤ n - 1
      ∃ t, exec (.lfChDb a ch v) s = .next t ∧ t.cores = s.cores ∧ s.sameMem t ∧
        (fits → s.regsBut t [cfg, ptr] ∧ t.lfTail ch.val = x ∧ t.lfHead ch.val = head ∧
          t.lfState ch.val = (if s.lfState ch.val = 0 ∧ x ≠ head then 1 else s.lfState ch.val)) ∧
        (¬ fits → s.regsBut t [cfg] ∧ t.bitOf cfg 4 = true)) ∧
    (s.accepts a (R.LF_CH_CTL ch.val) false 0x80000000 → s.lfState ch.val = 3 →
      ∃ t, exec (.resume a ch) s = .next t ∧ t.lfState ch.val = 1 ∧ s.regsBut t [cfg] ∧ t.cores = s.cores ∧ s.sameMem t) ∧
    ∀ v : BitVec 32, s.accepts a cfg false (BitVec.ofNat 64 v.toNat) → 4 ≤ bits v 3 0 → bits v 3 0 ≤ 12 →
      (bit v 31 = true → bit v 24 = true → s.bitOf cfg 31 = false →
        ∃ t, exec (.lfChannelEnable a ch v) s = .next t ∧ t.bitOf cfg 31 = true ∧ t.bitOf cfg 24 = true ∧
          t.fld cfg 23 20 = bits v 23 20 ∧ t.fld cfg 3 0 = bits v 3 0 ∧ t.lfHead ch.val = 0 ∧ t.lfTail ch.val = 0 ∧
          s.regsBut t [cfg, ptr] ∧ t.cores = s.cores ∧ s.sameMem t) ∧
      (bit v 31 = false → s.bitOf cfg 31 = true → bit v 24 = s.bitOf cfg 24 → bits v 23 20 = s.fld cfg 23 20 →
        bits v 3 0 = s.fld cfg 3 0 →
        ∃ t, exec (.lfChannelDisable a ch v) s = .next t ∧ t.bitOf cfg 31 = false ∧
          (head = tail → s.lfRun ch.val = none → s.regsBut t [cfg] ∧ s.sameMem t) ∧
          ∀ r, s.lfRun ch.val = some r → r.started = true → t.lfRun ch.val = some r ∧ t.lfHead ch.val = head ∧
            t.lfTail ch.val = (head + 1) % n)

/-- The descriptor at the head of a channel takes the status of the first check of R348 that fails; one that passes waits for
its start counter, or starts with the group's next OPSEQ; a waiting one starts when its counter reads at least THRESH, and a
finished one leaves with its result word, STOPPED after a failure (R345, R348, R362). -/
def Obligations.LeapfrogDescriptors : Prop :=
  ∀ (ch : ChanId) (s : State),
    let begun (raw : List Byte) (u t : State) : Prop := ∃ r, t.lfRun ch.val = some r ∧ r.started = true ∧ r.raw = raw ∧
      r.opseq = u.fld (R.LF_GSTAT (lfGroup raw)) 31 0 ∧ r.epoch = u.fld (R.LF_GSTAT (lfGroup raw)) 59 56 ∧
      r.halves.map (fun h => h.send) = (if lfSend raw = 0 then [] else [true]) ++ (if lfRecv raw = 0 then [] else [false]) ∧
      t.fld (R.LF_GSTAT (lfGroup raw)) 31 0 = (u.fld (R.LF_GSTAT (lfGroup raw)) 31 0 + 1) % 2 ^ 32 ∧ t.lfState ch.val = 1 ∧
      t.cores = u.cores ∧ u.sameMem t
    let plain (raw : List Byte) (u : State) : Prop := lfOp raw = 1 ∧ lfRecv raw < 3 ∧ ∀ next chip,
      u.lfBridge (u.entryOf (lfGroup raw)) next chip = none
    (∀ (v u : State) (raw : List Byte) (ps : List (List (Nat × Nat))) (st2 : Status), s.bitOf (R.LF_CH_CFG ch.val) 31 = true →
      s.lfState ch.val ≠ 3 → s.lfRun ch.val = none → s.lfHead ch.val ≠ s.lfTail ch.val →
      s.lfFetch ch.val (s.lfHead ch.val) = (v, raw, 0) →
      (∀ next chip, v.lfBridge (v.entryOf (lfGroup raw)) next chip = none) →
      let st1 := lfStatic raw none
      v.lfTranslate (s.lfPart ch.val) (lfRanges raw (entrySize (v.grp (lfGroup raw) 0))) = (u, ps, st2) →
      let st3 := u.lfGroupCheck ch.val raw
      let failed (x t : State) (st : Status) : Prop := ∃ r, t.lfRun ch.val = some r ∧ r.started = true ∧ r.status = st ∧
        r.halves = [] ∧ t.lfState ch.val = 1 ∧ t.cores = x.cores ∧ x.sameMem t
      ∃ t, exec (.lfDescriptorStart ch) s = .next t ∧
        if st1 ≠ 0 then failed v t st1
        else if st2 ≠ 0 then failed u t st2
        else if lfOverlap raw = true then failed u t 0x0102
        else if st3 ≠ 0 then failed u t st3
        else if lfThresh raw ≠ 0 then t.lfState ch.val = 2 ∧ t.cores = u.cores ∧ u.sameMem t ∧
          ∃ r, t.lfRun ch.val = some r ∧ r.started = false ∧ r.raw = raw
        else plain raw u → begun raw u t) ∧
    ∀ r : LfRun, s.lfRun ch.val = some r →
      (∀ (v u : State) (ps : List (Nat × Nat)) (d : List TByte), r.started = false → r.group = lfGroup r.raw → r.halves = [] →
        s.translate .lf 3 r.part (lfStart r.raw) 8 false = (v, ps, 0) → v.piecesAccess .lf ps = 0 → v.piecesRead ps = (u, d, 0) →
        ∃ t, exec (.lfStartPoll ch) s = .next t ∧
          (signed 64 (leNat (clean d)) < (lfThresh r.raw : Int) → t = u) ∧
          ((lfThresh r.raw : Int) ≤ signed 64 (leNat (clean d)) → u.lfGroupCheck ch.val r.raw = 0 → plain r.raw u →
            begun r.raw u t)) ∧
      (∀ (v : State) (st : Status), r.started = true → (∀ h ∈ r.halves, h.fin = true) → r.sent = [] → r.dropped = 0 →
        lfWord r.raw 0x30 = 0 →
        (s.setRun ch.val none).lfStore (s.lfPart ch.val) ((s.reg (R.LF_CH_BASE ch.val)).toNat + 64 * r.idx + 0x38)
          (leBytes 8 (r.status.toNat * 2 ^ 48 + r.ind % 64 * 2 ^ 40)) = (v, st) →
        ∃ t, exec (.lfComplete ch) s = .next t ∧ t.lfRun ch.val = v.lfRun ch.val ∧ v.sameMem t ∧
          t.lfHead ch.val = (r.idx + 1) % s.lfSize ch.val ∧
          t.lfState ch.val = (if r.status ≠ 0 then 3 else if v.lfState ch.val = 3 then 3
            else if t.lfHead ch.val = v.lfTail ch.val then 0 else 1))

/-- A receive half opens a window of HBM of min(remaining, HWIN) and announces it over its route; the window's last byte closes it,
and the half ends after its last byte; a half without progress for WTMO ends with GS_0D08; a message acts on the active half that it
names, an older partner's error gives GS_0C05, and one that names none is dropped and counted (R349, R352, R353, R355, R361,
R362). -/
def Obligations.LeapfrogWindowsAndMessages : Prop :=
  ∀ (s : State),
    (∀ (ch : ChanId) (r : LfRun), s.lfRun ch.val = some r →
      (∀ (i a n : Nat) (h : LfHalf) (rest : List (Nat × Nat)), r.halves.findIdx? (s.canOpen ·) = some i → r.halves[i]? = some h →
        h.here = false → subPieces r.dst (halfBase r h + h.opened) (h.total - h.opened) = (a, n) :: rest →
        (∀ k, s.regionOf a 1 ≠ some (.window k)) →
        let w : LfWin := ⟨h.opened, min (s.runLen ((a, n) :: rest)) (s.fld R.LF_CFG 31 24 * 0x10000), 0, none, 0, 0⟩
        ∃ t m, exec (.lfWindowOpen ch) s = .next t ∧ t.net = s.net ++ [.engine h.chip h.route m] ∧
          m.kind = .window w.base w.len h.total (halfKey r) ∧ m.epoch = BitVec.ofNat 4 r.epoch ∧
          m.opseq = BitVec.ofNat 32 r.opseq ∧
          t.lfRun ch.val = some { r with
            halves := r.halves.set i { h with opened := w.base + w.len, wins := h.wins ++ [w], since := s.ns } } ∧
          t.regs = s.regs ∧ t.cores = s.cores ∧ s.sameMem t) ∧
      (lfOp r.raw = 1 → (∀ h ∈ r.halves, ∀ w ∈ h.wins, w.core = none) →
        ∃ t r', exec (.lfWindowClose ch) s = .next t ∧ t.lfRun ch.val = some r' ∧ t.regs = s.regs ∧ t.cores = s.cores ∧
          s.sameMem t ∧ ∀ (i : Nat) (h : LfHalf), r.halves[i]? = some h → ∃ x, r'.halves[i]? = some x ∧
            (h.send = true → x = h) ∧
            (h.send = false → h.known = true ∧ h.moved = h.total → x.fin = true ∧ x.wins = []) ∧
            (h.send = false → ¬ (h.known = true ∧ h.moved = h.total) → x.fin = h.fin ∧
              x.wins = h.wins.filter (fun w => decide (w.landed ≠ w.len)))) ∧
      ((∃ h ∈ r.halves, h.fin = false ∧ h.gen = 3 ∧ h.since + max 1 (s.fld R.LF_CFG 55 40) * 1000000 ≤ s.ns) →
        ∃ t r', exec (.lfWindowTimeout ch) s = .next t ∧ t.lfRun ch.val = some r' ∧ s.sameMem t ∧
          r'.status = (if r.status = 0 then 0x0D08 else r.status) ∧
          ∀ (i : Nat) (h : LfHalf), r.halves[i]? = some h → ∃ x, r'.halves[i]? = some x ∧
            if h.fin = false ∧ h.gen = 3 ∧ h.since + max 1 (s.fld R.LF_CFG 55 40) * 1000000 ≤ s.ns then
              x.fin = true ∧ x.wins = [] else x = h)) ∧
    ∀ m : LfMsg,
      let s1 := s.taken (.engine s.chipId [] m)
      (m.kind ≠ .beat → s.activeHalf m = none → ∃ t, exec (.lfMessage m) s = .next t ∧ s.regsBut t [R.LF_DROP_CNT] ∧
        t.fld R.LF_DROP_CNT 31 0 = min (s.fld R.LF_DROP_CNT 31 0 + 1) (2 ^ 32 - 1) ∧ t.cores = s.cores ∧ s.sameMem t ∧
        t.sys.lf = s.sys.lf) ∧
      (m.kind = .beat → s.ringMode m.group.val = true → s.fld (R.LF_GSTAT m.group.val) 59 56 = m.epoch.toNat →
        ∃ t, exec (.lfMessage m) s = .next t ∧ t.regs = s.regs ∧ t.cores = s.cores ∧ s.sameMem t ∧
          Sparse.get (fun _ => 0) t.sys.lf.beats (2 * m.group.val + m.fromNext.toNat) = s.ns) ∧
      ∀ (ch i : Nat) (r : LfRun) (h : LfHalf), s.activeHalf m = some (ch, i) → s.lfRun ch = some r → r.halves[i]? = some h →
        (∀ n, m.kind = .ack n → ∃ t x, exec (.lfMessage m) s = .next t ∧ t.lfRun ch = some { r with halves := r.halves.set i x } ∧
          x.moved = h.moved + n ∧ x.fin = (h.fin || decide (h.total ≤ h.moved + n ∨ h.gen ≠ 3)) ∧ t.regs = s.regs ∧
          t.cores = s.cores ∧ s.sameMem t) ∧
        (∀ (sent : Bool) (st : Status), m.kind = .fail sent st → ∃ t r', exec (.lfMessage m) s = .next t ∧ t.lfRun ch = some r' ∧
          r'.halves = r.halves.set i { h with fin := true, wins := [] } ∧
          r'.status = (if r.status ≠ 0 then r.status else if h.gen = 3 then st else 0x0C05) ∧ s.sameMem t) ∧
        (∀ (base len total : Nat) (v : State) (d : List TByte), m.kind = .window base len total (halfKey r) → base = h.opened →
          h.gen = 3 → lfOp r.raw = 1 → s1.lfRead r.part (subPieces r.src base (min len (h.total - base))) = (v, d, 0) →
          ∃ t y x r', exec (.lfMessage m) s = .next t ∧ t.net = v.net ++ [.engine h.chip h.route y] ∧ y.kind = .data base h.total d 0 ∧
            t.lfRun ch = some r' ∧ r'.halves = r.halves.set i x ∧ x.opened = base + len ∧ r'.status = r.status ∧ v.sameMem t) ∧
        (∀ (off total : Nat) (d : List TByte) (w : LfWin) (v : State) (st : Status), m.kind = .data off total d 0 →
          h.wins.find? (fun w => decide (w.base ≤ off) && decide (off + d.length ≤ w.base + w.len)) = some w → w.core = none →
          lfOp r.raw = 1 → lfRed r.raw = false → total ≤ h.total → s1.piecesWrite d (subPieces r.dst off d.length) = (v, st) →
          ∃ t y x r', exec (.lfMessage m) s = .next t ∧ t.net = v.net ++ [.engine h.chip h.route y] ∧ y.kind = .ack d.length ∧
            t.lfRun ch = some r' ∧ r'.halves = r.halves.set i x ∧ x.moved = h.moved + d.length ∧
            r'.status = (if r.status = 0 then st else r.status) ∧ v.sameMem t) ∧
        ∀ base len total key, m.kind = .window base len total key → key ≠ halfKey r →
          ∃ t y r', exec (.lfMessage m) s = .next t ∧ t.net = s1.net ++ [.engine h.chip h.route y] ∧ y.kind = .fail false 0x0D05 ∧
            t.lfRun ch = some r' ∧ r'.status = (if r.status = 0 then 0x0D05 else r.status) ∧ t.regs = s.regs ∧ s.sameMem t

/-- A READY ring group sends heartbeats to its MX3 neighbours and fails on 1 ms without one, ending its descriptors with
GS_0D06; a re-form notice of the group's EPOCH marks it REFORMING, where it may re-form here, and fails it where it may not, and
at the instant the background entry is swapped, EPOCH advances and it is READY;
LF_BARRIER_SET applies at once on the N640 (R362, R364 to R366, R372). -/
def Obligations.LeapfrogGroups : Prop :=
  ∀ (g : GroupId) (s : State),
    let st := R.LF_GSTAT g.val
    let a := s.grp g.val 0
    let near (next : Bool) : Nat := neighbour (entrySize a) (entryRank a) next
    let chip (next : Bool) : Nat := (s.member g.val (near next)).2
    (s.ringMode g.val = true → 2 ≤ entrySize a → s.grpState g.val = 1 →
      (∀ next, (s.member g.val (near next)).1 = 3) →
      (∃ t m1 m2, exec (.lfHeartbeat g) s = .next t ∧
        t.net = s.net ++ [.engine (chip true) (s.routeTo (s.entryOf g.val) (some true) (chip true)) m1,
          .engine (chip false) (s.routeTo (s.entryOf g.val) (some false) (chip false)) m2] ∧
        (∀ m ∈ [m1, m2], m.kind = .beat ∧ m.group = g ∧ m.epoch = BitVec.ofNat 4 (s.fld st 59 56)) ∧
        t.regs = s.regs ∧ t.cores = s.cores ∧ s.sameMem t) ∧
      ∀ next, Sparse.get (fun _ => 0) s.sys.lf.beats (2 * g.val + next.toNat) + 1000000 ≤ s.ns → bit a 56 = false →
        ∃ t, exec (.lfHeartbeatLoss g next) s = .next t ∧ t.grpState g.val = 2 ∧ t.fld st 55 42 = near next ∧ s.sameMem t ∧
          ∀ (c : ChanId) (r : LfRun), s.lfRun c.val = some r → r.group = g.val → ∃ r', t.lfRun c.val = some r' ∧
            r'.started = true ∧ r'.status = (if r.status = 0 then 0x0D06 else r.status) ∧
            ∀ h ∈ r'.halves, h.fin = true ∧ h.wins = []) ∧
    (∀ m : Reform, s.ringMode g.val = true → m.frank.toNat < entrySize a →
      let heeds : Prop := bit a 56 = true ∧ bit a 57 = false ∧ s.bitOf R.LF_CFG 63 = true ∧ 3 ≤ entrySize a
      let live : Prop := s.grpState g.val ≠ 0 ∧ s.grpState g.val ≠ 2 ∧ s.fld st 59 56 = m.epoch.toNat
      (live → heeds → entryRank a ≠ m.frank.toNat → s.pendOf g.val = none → s.chorusNs < m.inst.toNat →
        ∃ t, exec (.reformNotice g m) s = .next t ∧ t.grpState g.val = 3 ∧ t.fld st 55 42 = m.frank.toNat ∧
          t.pendOf g.val = some ⟨m.frank.toNat, m.inst.toNat, s.reformWords g.val m.frank.toNat⟩) ∧
      (live → ¬ heeds → ∃ t, exec (.reformNotice g m) s = .next t ∧ t.grpState g.val = 2 ∧ t.fld st 55 42 = m.frank.toNat ∧
        t.pendOf g.val = none) ∧
      (¬ live → exec (.reformNotice g m) s =
        .next (s.taken (.ctl 5 s.chipId [g.val, m.frank.toNat, m.epoch.toNat, m.inst.toNat])))) ∧
    (∀ p, s.pendOf g.val = some p → p.inst ≤ s.chorusNs → p.words.length = 4 →
      ∃ t, exec (.reformSwap g) s = .next t ∧ t.grpState g.val = 1 ∧ t.pendOf g.val = none ∧
        (∀ w, w < 4 → p.words[w]? = some (t.grp g.val w)) ∧ t.fld st 59 56 = (s.fld st 59 56 + 1) % 16 ∧ t.fld st 31 0 = 0 ∧
        t.cores = s.cores ∧ s.sameMem t) ∧
    ∀ (cmd : Cmd) (args : List Byte), s.commands 0x40 cmd args → s.variant.lf = false → leAt args 0 1 = g.val →
      let fl := leAt args 1 1
      let area := leAt args 8 8
      let ms := (List.range (leAt args 2 2 + 1)).map (s.lfMember area (fl % 2))
      fl ≤ 3 → area % 0x10000 = 0 → leAt args 2 2 < s.xdim * s.ydim → leAt args 2 2 < 2 ^ 14 →
      (∀ m ∈ ms, m.1 ≠ 0 ∧ m.2 < s.xdim * s.ydim) → (ms.map (fun m => m.2)).Nodup → (3, s.chipId) ∈ ms →
      (∀ d ∈ s.fe.descs, ¬ (d.lmode = 2 ∧ d.ready = false ∧ d.bgrp = g.val) ∧ ¬ (d.barr = true ∧ d.bgrp = g.val)) →
      ∃ t, exec (.lfBarrierSet cmd) s = .next t ∧ t.msgState cmd 2 ∧ t.bitOf (R.LF_GRP g.val 0) 57 = decide (fl / 2 = 1) ∧
        t.fld (R.LF_GRP g.val 0) 55 42 = leAt args 2 2 ∧
        ms[t.fld (R.LF_GRP g.val 0) 41 28]?.map (fun m => m.2) = some s.chipId ∧
        t.fld (R.LF_GRP g.val 3) 47 16 = area / 0x10000 % 2 ^ 32 ∧ t.fld (R.LF_GRP g.val 3) 0 0 = fl % 2 ∧
        t.fld R.CHR_BARRIER_CFG 31 0 = leAt args 4 4 ∧ t.cores = s.cores ∧ s.sameMem t

/-! ## HBM (chapter 14) -/

/-- A controller read returns its bytes, poisoned where a row of R384 decides, and the status of the first such word; a write
stores its bytes and no others, or is refused where it would merge into an unreadable block; a write-back cleans its block; a
FILL that passes its checks is accepted, and complete it has put its pattern over its range (R383, R384, R386). A bucket leaks
one from its level, and its overflow is taken by firmware; a scrub corrects a correctable block and poisons an uncorrectable
one; a repair takes the first candidate row off the list onto a spare, or leaves it unrepaired with none left; an offline
stack reports ABSENT (R388, R390 to R393). -/
def Obligations.HbmAccessFillAndUpkeep : Prop :=
  (∀ s : State,
    (∀ (addr : Addr) (len : BitVec 8) (d : List TByte) (errs : List (Fin 4 × Upset)),
      (s.hbmHeld addr.toNat len.toNat = true → exec (.hbmRead addr len errs) s = .next s) ∧
      (s.hbmHeld addr.toNat d.length = true → exec (.hbmWrite addr d) s = .next s)) ∧
    (∀ (addr : Addr) (len : BitVec 8), addr.toNat + len.toNat ≤ s.variant.hbmEnd → s.hbmHeld addr.toNat len.toNat = false →
      let a := addr.toNat
      ∃ t, exec (.hbmRead addr len []) s = .next t ∧
        t.hbm.ansSt = ((wordsOf a len.toNat).findSome? s.hbmResolve).getD 0 ∧
        t.hbm.ans = (List.range len.toNat).map (fun i =>
          if (s.hbmResolve ((a + i) / 8)).isSome then none else some (s.hbmReadByte (a + i))) ∧
        t.posns = s.posns ∧ t.cores = s.cores ∧ (∀ b, t.hbmByte b = s.hbmByte b) ∧
        ((∀ w ∈ wordsOf a len.toNat, s.hbmResolve w = none) → (∀ b ∈ blocksOf a len.toNat, s.hbmErr b ≠ .corr) → t.regs = s.regs)) ∧
    (∀ (addr : Addr) (d : List Byte), addr.toNat + d.length ≤ s.variant.hbmEnd → s.hbmHeld addr.toNat d.length = false →
      let a := addr.toNat
      let whole (b : Nat) : Prop := a ≤ 64 * b ∧ 64 * b + 64 ≤ a + d.length
      (∀ b ∈ blocksOf a d.length, s.stackOff (hbmMap s.variant (64 * b)).1 = false) →
      ((∀ b ∈ blocksOf a d.length, whole b ∨ (s.hbmWrote b = true ∧ s.hbmErr b ≠ .ue ∧ s.hbmErr b ≠ .mismatch ∧
          ∀ w, w / 8 = b → s.hbmPoisoned w = false)) →
        ∃ t, exec (.hbmWrite addr (carried d)) s = .next t ∧ t.hbm.ansSt = 0 ∧ t.regs = s.regs ∧ t.cores = s.cores ∧
          t.posns = s.posns ∧ (∀ i, i < d.length → some (t.hbmByte (a + i)) = d[i]?) ∧
          ∀ b, (b < a ∨ a + d.length ≤ b) → t.hbmByte b = s.hbmByte b) ∧
      (∀ b, blocksOf a d.length = [b] → ¬ whole b → s.hbmWrote b = false → Config.hbmUnwrittenReads b s.free = false →
        ∃ t, exec (.hbmWrite addr (carried d)) s = .next t ∧ t.hbm = { s.hbm with ansSt := 0x0E04, queue := t.hbm.queue } ∧ t.regs = s.regs ∧
          t.cores = s.cores ∧ t.posns = s.posns)) ∧
    (∀ block : BitVec 42, block.toNat ∈ s.hbm.wb → s.stackOff (hbmMap s.variant (64 * block.toNat)).1 = false →
      ∃ t, exec (.hbmCorrectedWriteback block) s = .next t ∧ t.hbmErr block.toNat = .ok ∧ block.toNat ∉ t.hbm.wb ∧
        (∀ b, t.hbmByte b = s.hbmByte b) ∧ t.regs = s.regs ∧ t.cores = s.cores ∧ t.posns = s.posns) ∧
    (∀ (cmd : Cmd) (args : List Byte) (v : State) (ps : List (Nat × Nat)), s.commands 0x10 cmd args →
      leAt args 0x19 7 = 0 → leAt args 0x18 1 ≤ 1 → leAt args 0 8 % 64 = 0 → leAt args 8 8 % 64 = 0 → leAt args 8 8 ≠ 0 →
      s.fillPieces cmd.func.val (cmd.slot.map (fun i => i.val)) (leAt args 0 8) (leAt args 8 8) = (v, ps, 0) →
      (∀ r ∈ v.hbm.runs, ¬ (r.func = cmd.func.val ∧ r.slot.isSome = cmd.slot.isSome)) →
      ∃ t r, exec (.fill cmd) s = .next t ∧ t.msgState cmd 1 ∧ t.hbm = { v.hbm with runs := v.hbm.runs ++ [r] } ∧
        r.func = cmd.func.val ∧ r.pieces = ps ∧ r.pattern = BitVec.ofNat 64 (leAt args 0x10 8) ∧
        r.poison = decide (leAt args 0x18 1 = 1) ∧ t.cores = v.cores ∧ t.posns = v.posns) ∧
    ∀ (fn : FuncId) (r : FillRun) (a n : Nat), s.hbm.runs.find? (fun r => r.func == fn.val) = some r → r.pieces = [(a, n)] →
      a % 64 = 0 → n % 64 = 0 → (∀ x : StackId, s.stackOff x.val = false) →
      ∃ t, exec (.fillComplete fn) s = .next t ∧ t.hbm.runs = s.hbm.runs.erase r ∧ t.posns = s.posns ∧ t.cores = s.cores ∧
        (∀ b, t.hbmByte b = if a ≤ b ∧ b < a + n then BitVec.ofNat 8 (r.pattern.toNat / 2 ^ (8 * (b % 8))) else s.hbmByte b) ∧
        ∀ w, t.hbmPoisoned w = if a ≤ 8 * w ∧ 8 * w < a + n then r.poison else s.hbmPoisoned w) ∧
  ∀ s : State,
    (∀ bk : Bucket, (∀ x, bk = .stack x → s.stackOff x.val = false) → s.leakAt bk + s.leakNs bk ≤ s.ns →
      ∃ t, exec (.bucketLeak bk) s = .next t ∧ t.fld (bucketReg bk) 15 0 = s.fld (bucketReg bk) 15 0 - 1 ∧
        t.fld (bucketReg bk) 31 16 = s.fld (bucketReg bk) 31 16 ∧ s.regsBut t [bucketReg bk] ∧ t.cores = s.cores ∧
        t.posns = s.posns ∧ t.hbm = { s.hbm with leaks := t.hbm.leaks } ∧ t.leakAt bk = s.ns) ∧
    (∀ bk : Bucket, bk ∈ s.fw.irqs → s.procState (s.bucketProc bk) = 2 →
      ∃ t, exec (.bucketOverflowInterrupt bk) s = .next t ∧ t.fw.irqs = s.fw.irqs.erase bk ∧
        (t.fn 0).seq = (s.fn 0).seq + 1 ∧ t.cores = s.cores ∧ s.sameMem t) ∧
    (∀ (pc : BitVec 9) (u : Upset), s.variant.stack (pc.toNat / 64) = true →
      s.bitOf (R.HBM_SCRUB_CFG (pc.toNat / 64)) 31 = true → s.stackOff (pc.toNat / 64) = false →
      s.stackDown (pc.toNat / 64) = false → s.scrubDue pc.toNat ≤ s.ns →
      let b := hbmAddr s.variant pc.toNat (s.scrubbed pc.toNat % 12582912 * 64) / 64
      s.hbmWrote b = true →
      ∃ t, exec (.scrubRead pc u) s = .next t ∧ t.scrubbed pc.toNat = s.scrubbed pc.toNat + 1 ∧ t.posns = s.posns ∧
        t.cores = s.cores ∧ (t.sweptAt pc.toNat).1 = s.ns ∧ (∀ x, x / 64 ≠ b → t.hbmByte x = s.hbmByte x) ∧
        (u ∈ [.wrong 1, .wrong 2, .wrong 3] → (∀ w, w / 8 = b → s.hbmPoisoned w = false) →
          t.hbmErr b = .ok ∧ ∀ x, t.hbmByte x = s.hbmByte x) ∧
        (u ∈ [.wrong 4, .index 1, .index 2, .index 3, .index 4] → ∀ w, w / 8 = b → t.hbmPoisoned w = true)) ∧
    (∀ (st : StackId) (row : Nat), s.hbm.cands.find? (fun row => (hbmMap s.variant (row * 2048)).1 == st.val) = some row →
      s.stackOff st.val = false → s.procState 0 = 2 →
      let pc := (hbmMap s.variant (row * 2048)).2
      let used := Sparse.get (fun _ => 0) s.hbm.spares pc
      ∃ t, exec (.pprRepair st) s = .next t ∧ row ∉ t.hbm.cands ∧ t.posns = s.posns ∧ t.cores = s.cores ∧
        (used < 32 → Sparse.get (fun _ => 0) t.hbm.spares pc = used + 1 ∧ t.hbm.hard = s.hbm.hard ++ [row]) ∧
        (32 ≤ used → t.hbm.stuck = s.hbm.stuck ++ [row] ∧ t.hbm.spares = s.hbm.spares)) ∧
    ∀ (st : StackId) (b : Bool), s.variant.stack st.val = true → s.stackOff st.val = false →
      ∃ t, exec (.stackOffline st b) s = .next t ∧ t.stackOff st.val = true ∧ t.cores = s.cores ∧ s.sameMem t

/-! ## Partitions (chapter 15) -/

/-- A host's read of a mapped register completes with its value and a write to the doorbell page is the doorbell; an access
through an aperture is translated for the function's partition: a read completes with its bytes, a write is performed, one that
translation refuses completes with CA or is discarded, and at a held window or a sleeping stack a read waits and a write is kept
(R39, R215, R283, R401, R402, R458). -/
def Obligations.HostAccess : Prop :=
  ∀ (fn : FuncId) (off : BitVec 48) (s : State), s.enabled fn.val = true →
    let f := fn.val
    (∀ (len : BitVec 12), (len = 4 ∨ len = 8) → 0x2000 ≤ off.toNat → off.toNat + len.toNat ≤ 0x4000 →
      let a := R.feBase f + (off.toNat - 0x2000)
      s.answers (.host fn) a (decide (len = 8)) →
      ∃ t, exec (.barHostRead fn .bar0 off len) s = .next t ∧ s.sameMem t ∧ t.cores = s.cores ∧
        t.cpls = s.cpls ++ [(f, .data (leBytes len.toNat ((s.regView (.host fn) a).toNat % 2 ^ (8 * len.toNat))))]) ∧
    (∀ (r : Fin 8) (size : Fin 4) (data : List Byte), data.length = 2 ^ size.val → off.toNat = 8 * r.val →
      ∃ t, exec (.barHostWrite fn .bar0 off data) s = .next t ∧
        exec (.submissionDoorbell fn r size (BitVec.ofNat 64 (leNat data))) s = .next t) ∧
    ∀ (bar : Bar) (p n : Nat), bar ≠ .bar0 → inBar f bar off.toNat n = true → s.partOfFunc f = some p →
      let va := match bar with | .bar4 => 0x0100_0000_0000 + off.toNat | _ => off.toNat
      (∀ (v : State) (ps : List (Nat × Nat)) (wr : Bool), s.translate .fe 2 p va n wr = (v, ps, 0) → v.piecesAccess .lf ps = 0 →
        v.lfOwned p ps = true → (∀ k ∈ v.pieceCores ps, v.sleeps k = false) →
        (((∃ k ∈ v.pieceCores ps, v.shut k = true) ∨ v.pieceStacks ps = true) →
          (∀ len : BitVec 12, wr = false → len.toNat = n → exec (.barHostRead fn bar off len) s = .next s) ∧
          ∀ data : List Byte, wr = true → data.length = n → ∃ t, exec (.barHostWrite fn bar off data) s = .next t ∧
            t.regs = s.regs ∧ t.cores = s.cores ∧ s.sameMem t ∧
            ∃ x ∈ t.fe.posted, x.func = f ∧ x.bar = bar ∧ x.off = off.toNat ∧ x.data = data) ∧
        ((∀ k ∈ v.pieceCores ps, v.shut k = false) → v.pieceStacks ps = false →
        (∀ (len : BitVec 12) (u : State) (d : List TByte) (st : Status), wr = false → len.toNat = n →
          v.piecesRead ps = (u, d, st) → ∃ t, exec (.barHostRead fn bar off len) s = .next t ∧ u.sameMem t ∧ t.regs = u.regs ∧
            t.cpls = u.cpls ++ [(f, if d.all (fun b => b.isSome) then .data (clean d) else .poisoned n)]) ∧
        (∀ (data : List Byte) (a : Nat) (u : State) (st : Status), wr = true → data.length = n → ps = [(a, n)] →
          v.memWrite a (carried data) = (u, st) → ∃ t, exec (.barHostWrite fn bar off data) s = .next t ∧ u.sameMem t ∧
            t.cpls = u.cpls))) ∧
      (∀ (v : State) (ps : List (Nat × Nat)) (st : Status) (wr : Bool), s.translate .fe 2 p va n wr = (v, ps, st) → st ≠ 0 →
        (∀ len : BitVec 12, wr = false → len.toNat = n → ∃ t, exec (.barHostRead fn bar off len) s = .next t ∧ v.sameMem t ∧
          t.cpls = v.cpls ++ [(f, .ca)]) ∧
        (∀ data : List Byte, wr = true → data.length = n → ∃ t, exec (.barHostWrite fn bar off data) s = .next t ∧
          t = { v with fe := t.fe } ∧ v.sameMem t))

/-- PARTITION_CREATE that passes its checks makes the partition as its block says, with the groups, segments and translation
registers, and PARTITION_DESTROY of an idle partition clears them; NumVFs is what host software sets (R400, R405, R408 to
R410). -/
def Obligations.PartitionCommands : Prop :=
  ∀ s : State,
    (∀ (cmd : Cmd) (a : List Byte) (pl : Placement), cmd.func.val = 0 → s.commands 0x21 cmd a → s.createChecks a = 0 →
      s.place (s.coresOf (clustersOf (leAt a 0x0C 4))) (leAt a 1 1) (leAt a 2 1) (leAt a 4 2) (leAt a 3 1) (leAt a 6 1) = some pl →
      let p := leAt a 0 1
      let c := leAt a 1 1
      ∃ t, exec (.partitionCreate cmd) s = .next t ∧ t.msgState cmd 2 ∧ t.bitOf (R.MMU_PCFG p) 63 = true ∧
        t.fld (R.MMU_PCFG p) 61 60 = c ∧ t.fld (R.MMU_PCFG p) 59 54 = leAt a 0x0A 1 ∧
        t.fld (R.MMU_PCFG p) 31 0 = leAt a 0x0C 4 ∧ t.fld (R.MMU_PJOB p) 31 0 = leAt a 8 2 ∧
        (t.reg (R.MMU_ROOT p)).toNat = leAt a 0x10 8 ∧ (t.reg (R.MMU_TOFF p)).toNat = leAt a 0x18 8 ∧
        t.fld (R.FE_PSHARE p) 7 0 = leAt a 7 1 ∧ t.part p = PartSt.reset ∧
        (∀ e, e < leAt a 0x0B 1 → t.bitOf (R.MMU_EXT p e 0) 63 = true ∧
          t.fld (R.MMU_EXT p e 0) 47 21 = leAt a (0x40 + 16 * e) 8 / 0x20_0000 ∧
          t.fld (R.MMU_EXT p e 1) 47 21 = leAt a (0x48 + 16 * e) 8 / 0x20_0000) ∧
        (∀ r, r < 8 → t.fld (R.FE_RING_CFG (leAt a 0x0A 1) r) 19 16 = p ∧ t.fld (R.FE_RING_CFG (leAt a 0x0A 1) r) 21 20 = c) ∧
        ∀ k ∈ s.coresOf (clustersOf (leAt a 0x0C 4)), t.fld (R.FLG_CTX k c) 13 8 = leAt a 2 1 ∧
          t.fld (R.FLG_CTX k c) 5 0 = pl.bgrp ∧ ∀ g ∈ pl.segs, t.segOwner k g = some c) ∧
    (∀ (cmd : Cmd) (a : List Byte), cmd.func.val = 0 → s.commands 0x22 cmd a → leAt a 1 15 = 0 →
      let p := leAt a 0 1
      p ≤ 15 → s.bitOf (R.MMU_PCFG p) 63 = true → s.partBusy p = false →
      let c := s.fld (R.MMU_PCFG p) 61 60
      ∃ t, exec (.partitionDestroy cmd) s = .next t ∧ t.msgState cmd 2 ∧ t.part p = PartSt.reset ∧
        (∀ r ∈ [R.MMU_PCFG p, R.MMU_PJOB p, R.MMU_TOFF p, R.MMU_ROOT p, R.MMU_FAULT p, R.FE_PSHARE p], t.reg r = 0) ∧
        ∀ k ∈ s.partCores p, t.reg (R.FLG_CTX k c) = 0 ∧ ∀ g, t.segOwner k g ≠ some c) ∧
    ∀ num : BitVec 6, ∃ t, exec (.vfEnable num) s = .next t ∧ t.fw.numVfs = num.toNat ∧ t.regs = s.regs ∧ t.cores = s.cores ∧
      s.sameMem t

/-- An INVAL that passes its checks takes its place behind those before it with a fence 10 us ahead; at the fence the new root
counts and every TLB has lost the range; it completes when what it waits for has ended; a page walk puts its entry into the TLB
or records its failure (R414 to R417). -/
def Obligations.TranslationUpkeep : Prop :=
  ∀ s : State,
    (∀ (cmd : Cmd) (a : List Byte) (p : Nat), s.commands 0x20 cmd a → s.partOfFunc cmd.func.val = some p →
      let swap := (leAt a 0x18 1).testBit 0
      let root := leAt a 0x10 8
      let va := leAt a 0 8
      let len := leAt a 8 8
      leAt a 0x1A 6 = 0 → leAt a 0x18 1 < 2 → leAt a 0x19 1 = 0 → (swap = false → root = 0) → va % 0x20_0000 = 0 →
      len % 0x20_0000 = 0 → va < 0x0100_0000_0000 → va + len ≤ 0x0100_0000_0000 →
      (swap = true → root % 0x2000 = 0 ∧ s.inExtent p root 0x2000 = true) → (s.part p).invals.length < 4 →
      ∃ t e, exec (.inval cmd) s = .next t ∧ t.msgState cmd 1 ∧ (t.part p).invals = (s.part p).invals ++ [e] ∧
        e.va = (if len = 0 then 0 else va) ∧ e.len = (if len = 0 then 0x0100_0000_0000 else len) ∧
        e.newRoot = (if swap then some root else none) ∧ s.viewNs (some p) + 10000 ≤ e.fence ∧
        (∀ x, (s.part p).invals.getLast? = some x → x.fence < e.fence) ∧ e.fenced = false ∧ t.cores = s.cores ∧ s.sameMem t) ∧
    (∀ (p : PartId) (e : Inval), (s.part p.val).invals.find? (fun e => !e.fenced) = some e → e.fence ≤ s.viewNs (some p.val) →
      ∃ t, exec (.invalFence p) s = .next t ∧ (∀ r, e.newRoot = some r → (t.reg (R.MMU_ROOT p.val)).toNat = r % 2 ^ 64) ∧
        (e.newRoot = none → t.regs = s.regs) ∧ (t.part p.val).invals.length = (s.part p.val).invals.length ∧
        (∀ u, ∀ x ∈ t.tlb u, ¬ (x.part = p.val ∧ overlaps x.va x.size e.va e.len = true)) ∧
        (∀ q b, (t.pos q).pad.byte b = (s.pos q).pad.byte b) ∧ t.hbm = s.hbm) ∧
    (∀ (p : PartId) (e : Inval), (s.part p.val).invals.find? (fun e => e.fenced && !e.ranges.any s.rangeLives) = some e →
      ∃ t, exec (.invalComplete p) s = .next t ∧ (t.part p.val).invals = (s.part p.val).invals.erase e ∧ t.cores = s.cores ∧
        s.sameMem t) ∧
    ∀ (u : TlbUser) (p : PartId) (va : Addr) (wr : Bool) (v : State) (w : Walked), s.bitOf (R.MMU_PCFG p.val) 63 = true →
      va.toNat < 0x0100_0000_0000 → s.walk p.val va.toNat wr = (v, w) →
      ∃ t, exec (.pageWalk u p va wr) s = .next t ∧
        (w.status = 0 → (t.tlb u).head? = some w.entry ∧ (t.tlb u).length ≤ tlbSize u ∧ t.regs = v.regs ∧ t.hbm = v.hbm) ∧
        (w.status ≠ 0 → s.fld (R.MMU_FAULT p.val) 63 48 = 0 → t.fld (R.MMU_FAULT p.val) 63 48 = w.status.toNat ∧
          t.fld (R.MMU_FAULT p.val) 47 21 = va.toNat / 0x20_0000 ∧ v.sameMem t)

/-- A slice that has lasted its time ends while another context is ready; a switch at a yield point takes the context whose turn
or near target it is, with empty held buffers and v0 to v31 zero, and leaves every scalar register, tile, program slot and flag; a context past its slice by YIELD_MAX faults
with GS_0F0C (R419 to R421). -/
def Obligations.ContextSharing : Prop :=
  ∀ (k : CoreId) (s : State),
    let run := (s.core k.val).run
    ((∃ c, c < 4 ∧ c ≠ run.val ∧ s.ctxReady k.val c = true) →
      ((s.core k.val).sliceEnd = none → (s.core k.val).sliceAt + s.sliceNs k.val run.val ≤ s.ns → ∃ t, exec (.sliceEnd k) s = .next t ∧ (t.core k.val).sliceEnd = some s.ns ∧
        (t.core k.val).run = run ∧ s.sameMem t) ∧
      ∀ x, (s.core k.val).sliceEnd = some x → x + s.fld R.FE_SCHED_CFG 7 0 * 1000000 ≤ s.ns → s.atYield k.val = false →
        ∃ t, exec (.sliceOverrun k) s = .next t ∧ t.seqState k.val run.val = 6 ∧
          t.pc k.val run.val = s.pc k.val run.val ∧ s.sameMem t ∧ (t.core k.val).sliceEnd = none) ∧
    ∀ c : CtxId, s.nextCtx k.val = some c.val → s.atYield k.val = true → (∀ e ∈ (s.core k.val).mq, e.ctx ≠ run) → (∀ e ∈ (s.core k.val).vq, e.ctx ≠ run) →
      (s.ctxReady k.val run.val = false ∨ (s.core k.val).sliceEnd ≠ none ∨ (s.targetSoon k.val c.val).isSome = true) →
      (∀ w, (s.ctx k.val c.val).wait = some w → w.result = none) →
      (∀ w, (s.ctx k.val c.val).bask = some w → w.result = none ∧ w.entry = none) →
      ∃ t, exec (.contextSwitch k c) s = .next t ∧ (t.core k.val).run = c ∧ (∀ b, (t.core k.val).held b = HeldBuf.empty) ∧
        (∀ r l, (t.core k.val).lane r l = 0) ∧ (t.core k.val).tiles = (s.core k.val).tiles ∧
        (t.core k.val).acc = (s.core k.val).acc ∧ (t.core k.val).slots = (s.core k.val).slots ∧
        (∀ j d i, t.sreg j d i = s.sreg j d i) ∧ (∀ n, t.flag k.val n = s.flag k.val n) ∧ s.sameMem t

/-! ## Firmware (chapter 16) -/

/-- A post of 8 bytes waits in the mailbox, one of another width sets BADPOST, and one that finds four waiting is dropped with
OVERRUN; a take leaves its message for the command's own checks or rejects it; an acknowledge read takes the oldest entry; a
head write frees notices or sets HEADERR (R439, R440, R444, R453). -/
def Obligations.Mailboxes : Prop :=
  ∀ (fn : FuncId) (s : State), s.enabled fn.val = true →
    let f := fn.val
    let x := s.fn f
    (∀ (size : Fin 4) (v : Word64), ∃ t, exec (.mbxPost fn size v) s = .next t ∧ t.cores = s.cores ∧ s.sameMem t ∧
      (size ≠ 3 → t.bitOf (R.MBX_STAT f) 1 = true ∧ t.fn f = x ∧ s.regsBut t [R.MBX_STAT f]) ∧
      (size = 3 → x.posts.length < 4 → t.fn f = { x with posts := x.posts ++ [v] } ∧ t.regs = s.regs) ∧
      (size = 3 → 4 ≤ x.posts.length → t.bitOf (R.MBX_STAT f) 0 = true ∧ t.fn f = { x with aer := true } ∧
        s.regsBut t [R.MBX_STAT f])) ∧
    (∀ (p : Word64) (r : List Word64), x.posts = p :: r → s.nextTake = some f →
      (∀ i, i < 16 → p.toNat = 0x5400 + 64 * i →
        let m := s.pageAt f (0x400 + 64 * i) 64
        ∃ t, exec (.mbxTake fn) s = .next t ∧ (t.fn f).posts = r ∧ t.cores = s.cores ∧ s.sameMem t ∧ t.regs = s.regs ∧
          (s.msgStatus f i = 0 → t.fn f = { x with posts := r } ∧ t.fw.journal = s.fw.journal ++
            [⟨f, i, leAt m 2 1, leAt m 0 2, false, false, s.pageAt f (0x440 + 64 * i) (leAt m 4 2)⟩]) ∧
          (s.msgStatus f i ≠ 0 → (t.fn f).acks = x.acks ++ [ackEntry i (leAt m 2 1) (s.msgStatus f i)] ∧
            Sparse.get (fun _ => 0#8) (t.fn f).page (0x407 + 64 * i) = 3)) ∧
      ((∀ i, i < 16 → p.toNat ≠ 0x5400 + 64 * i) → ∃ t, exec (.mbxTake fn) s = .next t ∧
        t.fn f = { x with posts := r, acks := x.acks ++ [ackEntry 0x1F 0 0x1001] } ∧ t.fw.journal = s.fw.journal ∧
        t.regs = s.regs)) ∧
    (∃ t, exec (.mbxAckRead fn) s = .next t ∧ t.fn f = { x with acks := x.acks.drop 1 } ∧ t.regs = s.regs ∧
      t.cpls = s.cpls ++ [(f, .data (leBytes 4 (x.acks.headD 0).toNat))]) ∧
    ∀ v : BitVec 32, bits v 31 5 = 0 →
      ∃ t, exec (.mbxNrHeadWrite fn v) s = .next t ∧ t.cores = s.cores ∧ s.sameMem t ∧
        if (bits v 4 0 + 32 - s.fld (R.MBX_NR_HEAD f) 4 0) % 32 ≤ s.nrCount f then
          t.fld (R.MBX_NR_HEAD f) 4 0 = bits v 4 0 ∧
            (x.held = [] → x.lost = 0 → t.fn f = x ∧ s.regsBut t [R.MBX_NR_HEAD f])
        else t.bitOf (R.MBX_STAT f) 2 = true ∧ s.regsBut t [R.MBX_STAT f] ∧ t.fn f = x

/-- NOP, LOG_READ, TRACE_SET, DUMP_READ and DUMP_CLEAR that pass their checks complete at once with their effect, and an internal
mailbox takes eight messages (R436, R438, R441, R449 to R452). -/
def Obligations.FirmwareCommands : Prop :=
  ∀ (s : State),
    (∀ (cmd : Cmd) (a : List Byte),
      (s.commands 0x01 cmd a → ∃ t, exec (.nopCommand cmd) s = .next t ∧ t.msgState cmd 2 ∧ t.cores = s.cores ∧ s.sameMem t) ∧
      (s.commands 0x60 cmd a → 1 ≤ leAt a 4 4 → leAt a 4 4 ≤ 16384 → leAt a 8 8 % 64 = 0 →
        let recs := (s.fw.log.reverse.filter (fun r => decide (leAt a 0 4 ≤ r.seq))).take (leAt a 4 4)
        (∃ t, exec (.logRead ⟨cmd, true⟩) s = .next t ∧ t.msgState cmd 2 ∧ t.hostOut = s.hostOut) ∧
        ∃ t, exec (.logRead ⟨cmd, false⟩) s = .next t ∧ t.msgState cmd 2 ∧ t.cores = s.cores ∧ s.sameMem t ∧
          (recs ≠ [] → (cmd.func.val, leAt a 8 8, recs.flatMap LogRec.bytes) ∈ t.hostOut) ∧
          ∀ i r, cmd.slot = some i → recs.head? = some r →
            leNat (t.pageAt cmd.func.val (0x410 + 64 * i.val + 4) 4) = r.seq % 2 ^ 32 ∧
            leNat (t.pageAt cmd.func.val (0x410 + 64 * i.val + 8) 4) = recs.length) ∧
      (s.commands 0x62 cmd a → leAt a 5 3 = 0 → leAt a 0 2 ≤ leAt a 2 2 → leAt a 2 2 ≤ 0x3FFF → leAt a 4 1 ≤ 1 →
        ∃ t, exec (.traceSet cmd) s = .next t ∧ t.msgState cmd 2 ∧ t.cores = s.cores ∧ s.sameMem t ∧
          ∀ n, Sparse.get (fun _ => false) t.fw.traces n =
            if leAt a 0 2 ≤ n ∧ n ≤ leAt a 2 2 then decide (leAt a 4 1 = 1) else Sparse.get (fun _ => false) s.fw.traces n) ∧
      (s.commands 0x61 cmd a → leAt a 0xC 4 = 0 → leAt a 0 8 % 64 = 0 → leAt a 8 4 % 64 = 0 → 64 ≤ leAt a 8 4 →
        leAt a 8 4 ≤ 2 ^ 24 → leAt a 0x10 8 % 64 = 0 → s.fw.dump.kind ≠ 0 → leAt a 0 8 + leAt a 8 4 ≤ s.fw.dump.len →
        (∃ t, exec (.dumpRead ⟨cmd, true⟩) s = .next t ∧ t.msgState cmd 2 ∧ t.fw.dump = s.fw.dump ∧ t.hostOut = s.hostOut) ∧
        ∃ t, exec (.dumpRead ⟨cmd, false⟩) s = .next t ∧ t.msgState cmd 2 ∧ t.cores = s.cores ∧ s.sameMem t ∧
          (cmd.func.val, leAt a 0x10 8, (List.range (leAt a 8 4)).map (fun i => s.fw.dump.byte (leAt a 0 8 + i))) ∈ t.hostOut ∧
          t.fw.dump = { s.fw.dump with read := s.fw.dump.read || decide (leAt a 0 8 + leAt a 8 4 = s.fw.dump.len) }) ∧
      (s.commands 0x63 cmd a → s.fw.dump.kind ≠ 0 → ∃ t, exec (.dumpClear cmd) s = .next t ∧ t.msgState cmd 2 ∧
        t.fw.dump = { s.fw.dump with kind := 0 } ∧ t.cores = s.cores ∧ s.sameMem t)) ∧
    ∀ (src dst : ProcId) (msg : List Byte), ∃ t, exec (.internalMailboxPost src dst msg) s = .next t ∧ t.regs = s.regs ∧
      t.cores = s.cores ∧ s.sameMem t ∧
      if (s.mbox dst.val).length < 8 then t.mbox dst.val = s.mbox dst.val ++ [msg] ∧ Sparse.get (fun _ => 0) t.fw.bus src.val = 0
      else t.fw.mboxes = s.fw.mboxes ∧ Sparse.get (fun _ => 0) t.fw.bus src.val = 0x1006

/-- An access that R38, its read or its region refuses restarts its component, and a watchdog that is not kicked its processor,
counted with the cause; a restart of
20 ms has failed, and a processor that reaches RUN has a fresh watchdog; the security core answers SPDM requests, and the
scheduler core takes a captured register error (R432, R433, R446, R454, R535). -/
def Obligations.FirmwareProcessors : Prop :=
  ∀ (i : ProcId) (s : State),
    let st := R.FW_STAT i.val
    let restarted (why : Nat) (v t : State) : Prop := t.fld st 31 16 = why ∧
      t.fld st 47 32 = min (s.fld st 47 32 + 1) 0xFFFF ∧ t.posns = v.posns ∧ t.cores = v.cores
    (∀ (c : Byte) (wr : Bool) (a : Addr) (v : State) (x : Status), s.procState i.val = 2 →
      s.recent (Sparse.get (fun _ => []) s.fw.regions (256 * i.val + c.toNat)) = [] → s.fwAccess i wr a.toNat = (v, x) →
      (x = 0 → exec (.regionFault ⟨i, some c⟩ wr a) s = .next s) ∧
      (x ≠ 0 → ∃ t, exec (.regionFault ⟨i, some c⟩ wr a) s = .next t ∧ restarted x.toNat v t ∧ t.procState i.val = 2 ∧
        Sparse.get (fun _ => []) t.fw.regions (256 * i.val + c.toNat) = [s.ns])) ∧
    (s.pending.any (isKick i) = false → s.procState i.val = 2 → s.bitOf (R.FW_WDT i.val) 31 = true → (i.val = 0 ∨ s.procState 0 = 2) →
      Sparse.get (fun _ => 0) s.fw.kicked i.val + max 1 (s.fld (R.FW_WDT i.val) 15 0) * 1000000 ≤ s.ns →
      (s.recent (Sparse.get (fun _ => []) s.fw.expiries i.val)).length < 2 →
      ∃ t, exec (.watchdogExpiry i) s = .next t ∧ restarted 0x1009 s t ∧ t.procState i.val = 3 ∧ t.hbm = s.hbm ∧
        Sparse.get (fun _ => 0) t.fw.restart i.val = s.ns) ∧
    (∀ a : Agent, s.accepts a (R.FW_KICK i.val) false 0 → ∃ t, exec (.fwKick a i) s = .next t ∧
      Sparse.get (fun _ => 0) t.fw.kicked i.val = s.ns ∧ t.regs = s.regs ∧ t.cores = s.cores ∧ s.sameMem t) ∧
    (s.procState i.val = 3 →
      (Sparse.get (fun _ => 0) s.fw.restart i.val + 20000000 ≤ s.ns → i.val ≠ 1 → i.val ≠ 2 →
        ∃ t, exec (.processorRestartTimeout i) s = .next t ∧ t.procState i.val = 4 ∧ t.cores = s.cores ∧ s.sameMem t) ∧
      ∃ t, exec (.processorReachesRun i) s = .next t ∧ t.procState i.val = 2 ∧
        Sparse.get (fun _ => 0) t.fw.kicked i.val = s.ns ∧ t.posns = s.posns ∧ t.cores = s.cores) ∧
    (∀ req : List Byte, s.procState 0 = 2 → ∃ t, exec (.spdmRequest req) s = .next t ∧ t.fw.spdm = s.fw.spdm + 1 ∧
      t.regs = s.regs ∧ t.cores = s.cores ∧ s.sameMem t) ∧
    (s.fwReady = true → s.reg R.TOP_REG_ERR ≠ 0 → ∃ t, exec .regErrCapture s = .next t ∧ t.reg R.TOP_REG_ERR = 0 ∧
      s.regsBut t [R.TOP_REG_ERR] ∧ t.cores = s.cores ∧ s.sameMem t)

/-! ## Power (chapter 17) -/

/-- A position with nothing running becomes GATED and returns; an armed source and an access wake RETAIN, and an OFF position
refuses; a sleep request is taken up, starts each member's entry or is refused at one, and entry and exit end in their states
(R456 to R464). -/
def Obligations.SleepAndWake : Prop :=
  ∀ (d : Domain) (s : State),
    let st := R.PWR_DSTATE d.val
    let exits (t : State) : Prop := t.dstate d.val = 6 ∧ (t.dom d.val).target = s.dstate d.val ∧ s.regsBut t [st]
    (∀ p : PhysId, (s.dstate p.val = 0 → (∀ k, s.slotOf p.val = some k → (s.core k).mq = [] ∧ (s.core k).vq = [] ∧
        (s.core k).dq = [] ∧ ∀ c, c < 4 → s.seqState k c ∉ [1, 2, 5]) →
        ∃ t, exec (.gatedEntry p) s = .next t ∧ t.dstate p.val = 1 ∧ s.regsBut t [R.PWR_DSTATE p.val] ∧ t.cores = s.cores ∧
          s.sameMem t) ∧
      (s.dstate p.val = 1 → ∃ t, exec (.gatedExit p) s = .next t ∧ t.dstate p.val = 0 ∧
        s.regsBut t [R.PWR_DSTATE p.val] ∧ t.cores = s.cores ∧ s.sameMem t)) ∧
    (d.val < 832 → s.dstate d.val = 3 →
      (s.armed d.val 0 = true → ∃ t, exec (.retainAccessWake d) s = .next t ∧ exits t ∧
        (t.pos d.val).heldAcc = (s.pos d.val).heldAcc + 1 ∧ t.cores = s.cores) ∧
      ∀ src : Fin 4, s.armed d.val src.val = true → ∃ t, exec (.domainWake d src) s = .next t ∧ exits t ∧ t.cores = s.cores ∧
        s.sameMem t) ∧
    (∀ (m : WriteMsg) (k : Nat), d.val < 832 → s.dstate d.val = 4 → s.phys k = some d.val → m.lf = false →
      m.src.chip.toNat ≠ s.chipId → ∃ t, exec (.pwrAsleepRefusal d (.write m k)) s = .next t ∧
        t.net = s.net.erase (.write m k) ++ [.resp m.src m.xfer 0x1105 0 s.stamp] ∧ t.regs = s.regs ∧ t.cores = s.cores ∧ s.sameMem t) ∧
    (∀ (a : Agent) (v : Word64), s.accepts a R.PWR_SLEEP_REQ true v → s.sys.pwr.fixed = false →
      (∀ r, s.sys.pwr.req = some r → ∃ t, exec (.pwrSleepReq a v) s = .next t ∧ t.sys.pwr = s.sys.pwr ∧
        (s.reg R.TOP_REG_ERR = 0 → t.fld R.TOP_REG_ERR 63 48 = 0x1104) ∧ t.cores = s.cores ∧ s.sameMem t) ∧
      (s.sys.pwr.req = none → (bits v 63 60 = 1 ∨ bits v 63 60 = 2) → bits v 9 0 + bits v 41 32 < 0x340 →
        (∀ x, bits v 9 0 ≤ x → x ≤ bits v 9 0 + bits v 41 32 → s.domAbsent x = false) →
        ∃ t, exec (.pwrSleepReq a v) s = .next t ∧ t.bitOf R.PWR_SLEEP_STAT 47 = true ∧
          t.sys.pwr.req = some ⟨bits v 63 60, bits v 59 56, bits v 9 0, bits v 41 32, 0, s.ns, [], none⟩ ∧
          s.regsBut t [R.PWR_SLEEP_STAT] ∧ t.cores = s.cores ∧ s.sameMem t)) ∧
    (∀ (inp : SleepInputs) (r : SleepReq), s.sys.pwr.req = some r → r.refused = none → (r.target = 1 ∨ r.target = 2) →
      r.next ≤ r.count → r.since + 10 * r.next ≤ s.ns → d.val = r.first + r.next → s.dstate d.val = 0 →
      (∀ y ∈ r.started, y < 0x349) →
      let why := s.refusal d.val r inp
      ∃ t, exec (.sleepMemberCheck inp) s = .next t ∧ t.cores = s.cores ∧ s.sameMem t ∧
        (why = 0 → t.dstate d.val = 2 ∧ (t.dom d.val).target = r.target + 2 ∧ t.fld st 27 24 = r.wakeen % 16 ∧
          t.sys.pwr.req = some { r with next := r.next + 1, started := r.started ++ [d.val] }) ∧
        (why ≠ 0 → t.fld (R.PWR_RCNT d.val) 31 28 = why ∧ t.dstate d.val = 0 ∧
          (r.started = [] → t.sys.pwr.req = none ∧ t.fld R.PWR_SLEEP_STAT 63 48 = 0x1101 ∧
            t.fld R.PWR_SLEEP_STAT 46 40 = why ∧ t.fld R.PWR_SLEEP_STAT 39 30 = d.val))) ∧
    (s.sys.pwr.req = none → s.dstate d.val = 2 → (s.dom d.val).wake = false → (s.dom d.val).target < 16 →
      (s.dom d.val).since + entryNs (domKind d.val) (s.dom d.val).target ≤ s.ns →
      ∃ t, exec (.sleepEntryEnd d) s = .next t ∧ t.dstate d.val = (s.dom d.val).target ∧ s.regsBut t [st] ∧ t.cores = s.cores ∧
        s.sameMem t) ∧
    (s.sys.pwr.req = none → s.dstate d.val = 6 →
      (s.dom d.val).since + exitNs (domKind d.val) (s.dom d.val).target ≤ s.ns →
      ∃ t, exec (.sleepExitEnd d) s = .next t ∧ t.dstate d.val = 0 ∧ t.fld st 27 24 = 0 ∧ s.regsBut t [st] ∧
        t.cores = s.cores ∧ t.hbm = s.hbm ∧
        (d.val < 832 → (s.dom d.val).target = 4 → ∀ w, (t.pos d.val).pad.resolve w = some 0x0702) ∧
        (d.val < 832 → (s.dom d.val).target ≠ 4 → (t.pos d.val).pad = (s.pos d.val).pad))

/-- A CCLK change begins with the rail or with LMAX, which falls by 1 per interval to 0, where the relock begins; 5 us later the
rate is the new one, what fell due in the relock is late, and LMAX rises by 1 per interval to what it was; each loop steps its setting and names
itself as the limiter (R465, R466, R468, R469). A trip latches its sensor and places every stack in SELF_REFRESH; a rail out
of range takes its die to 0.8 GHz with LMAX 1 by its next change until 1 ms of normal control; the fourth failure of a
regulator sets AVS_ERR (R471, R512, R513). -/
def Obligations.PowerLoopsAndRails : Prop :=
  (∀ (d : DieId) (s : State),
    let x := s.die d.val
    let begins (mhz : Nat) (t : State) : Prop := (t.die d.val).relock = some mhz ∧ (t.die d.val).changed = some s.ns ∧
      (t.die d.val).lmax = (s.dieSlots d.val).map s.lmax ∧ (t.die d.val).phase = (if s.mhz d.val < mhz then 1 else 2) ∧
      (∀ k, t.lmax k = s.lmax k) ∧ t.cores = s.cores ∧ s.sameMem t
    (∀ mhz : BitVec 16, rateOk mhz.toNat = true → s.canChange d.val mhz.toNat = true → s.sys.pwr.fixed = false →
      s.tripped = false → x.railOut = none → s.procState 1 = 2 →
      ∃ t, exec (.cclkChange d mhz) s = .next t ∧ begins mhz.toNat t ∧ t.mhz d.val = s.mhz d.val) ∧
    (s.pending = [] → s.tripped = false → x.due ≤ s.ns + 1 →
      (x.phase = 2 → ∃ t, step s = .next t ∧ s.sameMem t ∧ (∀ k ∈ s.dieSlots d.val, t.lmax k = s.lmax k - 1) ∧
        ((∀ k ∈ s.dieSlots d.val, s.lmax k ≤ 1) → t.relocks d.val = true) ∧
        ((∃ k ∈ s.dieSlots d.val, 1 < s.lmax k) → (t.die d.val).phase = 2 ∧ t.ns + 1000 ≤ (t.die d.val).due)) ∧
      ∀ f : Nat → Nat, x.phase = 4 → x.lmax = (s.dieSlots d.val).map f → (∀ k, f k ≤ 16) →
        ∃ t, step s = .next t ∧ s.sameMem t ∧ (∀ k ∈ s.dieSlots d.val, t.lmax k = min (f k) (s.lmax k + 1)) ∧
          ((∀ k ∈ s.dieSlots d.val, f k ≤ s.lmax k + 1) → (t.die d.val).phase = 0 ∧ (t.die d.val).relock = none)) ∧
    (∀ mhz, x.relock = some mhz → x.phase = 3 → x.due + 5000 ≤ s.ns →
      ∃ t, exec (.cclkRelockComplete d) s = .next t ∧ t.mhz d.val = mhz % 2 ^ 16 ∧ (t.die d.val).phase = 4 ∧
        t.relocks d.val = false ∧ (∀ k, t.lmax k = s.lmax k) ∧ s.sameMem t ∧
        ∀ k ∈ s.dieSlots d.val, ∀ (c : CtxId) (w : LaunchWait), (s.ctx k c.val).launch = some w → w.target ≤ s.chorus →
          (t.ctx k c.val).launch = some { w with late := true }) ∧
    (s.governs = true →
      (∀ amps : BitVec 16, x.phase = 0 → x.railOut = none → s.fld (R.PWR_RAIL d.val) 47 32 < amps.toNat → x.stepped = none →
        ∃ t, exec (.currentLoop d amps) s = .next t ∧ (∀ k ∈ s.dieSlots d.val, t.lmax k = max 1 (s.lmax k - 1)) ∧
          t.fld R.PWR_STAT 31 24 = 3 + d.val ∧ (t.die d.val).amps = amps.toNat ∧ t.cores = s.cores ∧ s.sameMem t) ∧
      (∀ tj : BitVec 8,
        (s.fld R.PWR_THERM 23 16 < tj.toNat → x.phase = 0 → s.mhz d.val = 800 →
          ∃ t, exec (.temperatureLoop d tj) s = .next t ∧ (∀ k ∈ s.dieSlots d.val, t.lmax k = min 8 (s.lmax k)) ∧
            (t.die d.val).hot = true ∧ t.fld R.PWR_STAT 31 24 = 5 ∧ t.cores = s.cores ∧ s.sameMem t) ∧
        (tj.toNat ≤ s.fld R.PWR_THERM 23 16 → s.fld R.PWR_THERM 31 24 < tj.toNat → rateOk (s.mhz d.val - 50) = true →
          s.canChange d.val (s.mhz d.val - 50) = true → x.railOut = none → ∃ t, exec (.temperatureLoop d tj) s = .next t ∧
            begins (s.mhz d.val - 50) t ∧ t.fld R.PWR_STAT 31 24 = 5)) ∧
      (∀ (st : StackId) (c : BitVec 8), s.stackCap st.val ≠ 0 → s.fld R.PWR_THERM 15 8 < c.toNat →
        (Sparse.get (fun _ => ((0, 0) : Nat × Nat)) s.sys.pwr.slots st.val).1 = 0 →
        ∃ t, exec (.hbmTemperatureLoop st c) s = .next t ∧ t.fld R.PWR_STAT 31 24 = 6 ∧ t.cores = s.cores ∧ s.sameMem t ∧
          Sparse.get (fun _ => ((0, 0) : Nat × Nat)) t.sys.pwr.slots st.val = (1, s.ns)) ∧
      (∀ w : BitVec 16, s.fld R.PWR_LIMIT 31 16 < w.toNat →
        d.val = (if (s.die 0).amps * s.mv 0 < (s.die 1).amps * s.mv 1 then 1 else 0) → rateOk (s.mhz d.val - 50) = true →
        s.canChange d.val (s.mhz d.val - 50) = true → x.railOut = none → ∃ t, exec (.powerLoop w) s = .next t ∧
          begins (s.mhz d.val - 50) t ∧ t.fld R.PWR_STAT 31 24 = 1 ∧ t.fld R.PWR_STAT 63 48 = w.toNat)) ∧
    (s.sys.pwr.tinAt + s.fld R.PWR_PLANT 7 0 * 100000000 ≤ s.ns → ∃ t, exec .tinStale s = .next t ∧
      t.bitOf R.PWR_STAT 0 = true ∧ t.fld R.PWR_STAT 39 32 = s.fld R.PWR_THERM 7 0 ∧ s.regsBut t [R.PWR_STAT] ∧
      t.cores = s.cores ∧ s.sameMem t) ∧
    ∀ (a : Agent) (v : BitVec 32), s.accepts a R.PWR_TIN false (BitVec.ofNat 64 v.toNat) → bits v 7 0 ≤ 80 →
      ∃ t, exec (.pwrTinWrite a v) s = .next t ∧ t.fld R.PWR_TIN 7 0 = bits v 7 0 ∧ t.fld R.PWR_STAT 39 32 = bits v 7 0 ∧
        t.bitOf R.PWR_STAT 0 = false ∧ t.sys.pwr.tinAt = s.ns ∧ s.regsBut t [R.PWR_TIN, R.PWR_STAT] ∧ t.cores = s.cores ∧ s.sameMem t) ∧
  ∀ (d : DieId) (s : State),
    (∀ sensor : BitVec 9, (sensor.toNat ≤ 0x5F ∨ (0x100 ≤ sensor.toNat ∧ sensor.toNat ≤ 0x107)) → s.tripped = false →
      ∃ t, exec (.thermalTrip sensor) s = .next t ∧ t.tripped = true ∧ t.fld R.PWR_TRIP 8 0 = sensor.toNat ∧
        (∀ i, i < 8 → s.stackCap i ≠ 0 → t.dstate (0x340 + i) = 5) ∧ t.cores = s.cores ∧ s.sameMem t) ∧
    (∃ t, exec (.railOutOfRange d) s = .next t ∧ t.bitOf R.TOP_INPUT_STAT (27 - d.val) = true ∧
      (t.die d.val).railOut = some s.ns ∧ (t.die d.val).relock = some 800 ∧ (∀ l ∈ (t.die d.val).lmax, l = 1) ∧
      t.cores = s.cores ∧ s.sameMem t) ∧
    (∀ at_, (s.die d.val).railOut = some at_ → at_ + 1000000 ≤ s.ns → ∃ t, exec (.railNormalControl d) s = .next t ∧
      t.die d.val = { s.die d.val with railOut := none } ∧ t.regs = s.regs ∧ t.cores = s.cores ∧ s.sameMem t) ∧
    ∃ t, exec (.avsRetry d) s = .next t ∧ (t.die d.val).avs = min 4 ((s.die d.val).avs + 1) ∧
      (3 ≤ (s.die d.val).avs → t.bitOf R.TOP_INPUT_STAT 25 = true) ∧ t.cores = s.cores ∧ s.sameMem t

/-! ## Reset and bring-up (chapters 18 and 20) -/

/-- Power-on and cold reset leave every register at its reset value, every core empty and every word unwritten; a warm reset
begins with the cores and scratchpads empty, HBM, Chorus and the discipline's state kept, and the boot to come; a boot of a
confirmed image ends in PHASE RUN, and one without a readable slot record, or whose flash does not report its size, in
RECOVERY (R254, R310, R479, R480 to R482, R517, R519, R524). -/
def Obligations.ResetsAndBringUp : Prop :=
  ∀ s : State,
    let unwritten (t : State) : Prop := ∀ p w, (t.pos p).pad.resolve w = some 0x0702
    let empty (t : State) : Prop := (∀ a, t.reg a = regReset s.variant a) ∧ t.cores = [] ∧ unwritten t ∧ t.hbm.bytes = [] ∧
      t.chorus = 0 ∧ t.pending = s.pending ∧ t.variant = s.variant
    let warmed (t : State) : Prop := t.sys.boot.warm.isSome = true ∧ t.fld R.TOP_BOOT_STAT 63 60 = 0 ∧
      t.fld R.TOP_BOOT_STAT 31 0 = s.fld R.TOP_BOOT_STAT 31 0 ∧ t.reg R.CHR_STATE = s.reg R.CHR_STATE ∧ t.cores = [] ∧
      unwritten t ∧ (∀ b, t.hbmByte b = s.hbmByte b) ∧ t.chorus = s.chorus
    let booted (r : SlotRec) (t : State) : Prop := t.fld R.TOP_BOOT_STAT 63 60 = 7 ∧
      t.fld R.TOP_BOOT_STAT 59 59 = r.act % 2 ∧ t.fld R.TOP_BOOT_STAT 31 0 = (s.fld R.TOP_BOOT_STAT 31 0 + 1) % 2 ^ 32 ∧
      t.sys.boot.slots = some r ∧ ∀ i : ProcId, t.procState i.val = 2
    let good (inp : BootInputs) (r : SlotRec) : Prop := (slotInfo r r.act).state = 4 ∧
      (if r.act = 0 then inp.sigA else inp.sigB) = true ∧ inp.failProc = [] ∧ inp.deadBr = false ∧ inp.flash = true
    (∃ t, exec .coldReset s = .next t ∧ empty t ∧ t.sys.tapReset = true) ∧
    (∃ t, exec .powerOnReset s = .next t ∧ empty t ∧ t.sys.tap = .idcode) ∧
    (∃ t, exec .pcieReset s = .next t ∧ warmed t ∧ t.fw.numVfs = 0) ∧
    (∃ t, exec .peclkLost s = .next t ∧ warmed t ∧ t.bitOf R.TOP_INPUT_STAT 30 = true) ∧
    (s.procState 0 = 2 →
      (∀ (die : Fin 3) (m : Bool), ∃ t, exec (.pllLockLoss die m) s = .next t ∧ warmed t ∧ t.fw.dump.kind = 1 ∧
        t.fw.dump.cause = 5) ∧
      ∀ esc : Fin 6, (esc.val = 0 → s.sys.deadBr ≠ []) → (esc.val = 1 → s.lateReset = true) →
        (esc.val = 2 → s.procState 2 = 4) → ∃ t, exec (.deviceEscalation esc) s = .next t ∧ warmed t ∧ t.fw.dump.kind = 1 ∧
          t.fw.dump.cause = esc.val + 1) ∧
    (∀ inp : BootInputs, s.fld R.TOP_BOOT_STAT 63 60 = 0 → s.sys.boot.warm = none → s.sys.boot.known = false →
      (inp.pll = false → ∃ t, exec (.bringUp inp) s = .next t ∧ t.regs = s.regs ∧ t.cores = s.cores ∧ s.sameMem t) ∧
      (inp.pll = true → (inp.flash = false ∨ inp.slots.read = none) → ∃ t, exec (.bringUp inp) s = .next t ∧ t.fld R.TOP_BOOT_STAT 63 60 = 8 ∧
        t.fld R.TOP_BOOT_STAT 47 32 = 0x120A) ∧
      ∀ r, inp.pll = true → inp.slots.read = some r → inp.settings.read = none → good inp r →
        ∃ t, exec (.bringUp inp) s = .next t ∧ booted r t ∧ t.fld R.TOP_BOOT_STAT 56 56 = 0) ∧
    ∀ (inp : BootInputs) (r : SlotRec) (case : Nat), s.sys.boot.warm = some case → s.sys.boot.known = true →
      s.sys.boot.slots = some r → s.sys.boot.settings = none → good inp r →
      ∃ t, exec (.warmReset inp) s = .next t ∧ booted r t ∧ t.fld R.TOP_BOOT_STAT 56 56 = 1 ∧ t.sys.boot.warm = none

/-! ## Firmware shed and regeneration (chapter 18) -/

/-- A shed moves through its stages as R486's table says: begin, download, verify, activate, confirm, with its slot EMPTY, STAGED,
VERIFIED, TRIAL and CONFIRMED; a failed check marks the slot BAD; an abort or the confirmation timeout of a TRIAL returns to the
previous image (R486 to R492). -/
def Obligations.ShedStages : Prop :=
  ∀ (s : State) (r : SlotRec), s.sys.boot.slots = some r →
    let i := idleSlot r
    let at_ (stage : Nat) (x : SlotRec) (t : State) : Prop := t.stage = stage ∧ t.sys.boot.slots = some x ∧ t.cores = s.cores ∧
      s.sameMem t
    (∀ (cmd : Cmd) (a : List Byte), s.commands 0x50 cmd a → leAt a 0xC 4 = 0 → leAt a 0 8 % 4096 = 0 → leAt a 8 4 % 4096 = 0 →
      4096 ≤ leAt a 8 4 → leAt a 8 4 ≤ 0x200_0000 → s.stage = 0 →
      ∃ t, exec (.shedBegin cmd) s = .next t ∧ at_ 1 (putSlot r i ⟨0, 0, 0, 0, 0, 0, 0, 0⟩) t ∧ t.msgState cmd 1) ∧
    (s.stage = 1 →
      (∀ flashOk, ∃ t, exec (.shedDownloadComplete .error flashOk) s = .next t ∧ at_ 0 r t) ∧
      ∀ b, (∃ t, exec (.shedDownloadComplete (.bytes b) false) s = .next t ∧ at_ 0 r t) ∧
        ∃ t, exec (.shedDownloadComplete (.bytes b) true) s = .next t ∧ at_ 2 (putSlot r i { slotInfo r i with state := 1 }) t) ∧
    (∀ (cmd : Cmd) (a : List Byte) (chk : ImageCheck), s.commands 0x51 cmd a → s.stage = 2 →
      let st := s.verifyStatus chk
      ∃ t, exec (.shedVerify cmd chk) s = .next t ∧ t.msgState cmd 2 ∧
        (st = 0 → at_ 4 (putSlot r i ⟨2, 0, chk.version, chk.setMin, chk.setMax, chk.svn, chk.digest, 0⟩) t) ∧
        (st ≠ 0 → at_ 0 (markBad r i st) t ∧ t.fld R.FW_SHED_STAT 47 32 = st.toNat)) ∧
    (∀ (cmd : Cmd) (a : List Byte) (swap : SwapOutcome), s.commands 0x52 cmd a → leAt a 4 4 = 0 → 10 ≤ leAt a 0 4 →
      leAt a 0 4 ≤ 86400 → s.stage = 4 → s.swapStatus (slotInfo r i) swap = 0 →
      ∃ t, exec (.shedActivate cmd swap) s = .next t ∧ t.msgState cmd 2 ∧ t.fld R.TOP_BOOT_STAT 59 59 = i % 2 ∧
        at_ 6 { putSlot r i { slotInfo r i with state := 3, tries := 0 } with act := i, prev := r.act } t ∧
        t.sys.shed.tmo = leAt a 0 4 ∧ t.sys.shed.since = s.ns) ∧
    (∀ (cmd : Cmd) (a : List Byte), s.commands 0x53 cmd a → s.stage = 6 →
      ∃ t, exec (.shedConfirm cmd) s = .next t ∧ t.msgState cmd 2 ∧
        at_ 0 (putSlot r r.act { slotInfo r r.act with state := 4 }) t ∧
        t.sys.boot.svn = max s.sys.boot.svn (slotInfo r r.act).svn) ∧
    (∀ (cmd : Cmd) (a : List Byte), s.commands 0x54 cmd a →
      (s.stage = 2 ∨ s.stage = 4 → ∃ t, exec (.shedAbort cmd) s = .next t ∧ t.msgState cmd 2 ∧
        at_ 0 (putSlot r i { slotInfo r i with state := 0 }) t) ∧
      (s.stage = 6 → ∃ t, exec (.shedAbort cmd) s = .next t ∧ t.msgState cmd 2 ∧
        at_ 0 (markBad { r with act := r.prev } r.act 0x1209) t)) ∧
    (s.stage = 6 → s.sys.shed.since + s.sys.shed.tmo * 1000000000 ≤ s.ns →
      ∃ t, exec .shedConfirmTimeout s = .next t ∧ at_ 0 (markBad { r with act := r.prev } r.act 0x1208) t ∧
        t.fld R.TOP_BOOT_STAT 59 59 = r.prev % 2)

/-- A retiring position's slot moves to its cluster's spare with every byte of its scratchpad, and a spare that fails its test is
FAILED; without a spare the idle slot is unbound; a row repair takes a spare row of its deck (R496 to R498, R500). -/
def Obligations.Regeneration : Prop :=
  ∀ (p : PhysId) (s : State),
    (∀ k q, s.slotOf p.val = some k → s.retiring p.val = true → s.spare (p.val / 26) = some q → q < 832 → q ≠ p.val →
      (∃ t, exec (.retirePosition p false) s = .next t ∧ t.posState q = 5 ∧ t.phys k = some p.val ∧ t.cores = s.cores ∧
        s.sameMem t) ∧
      (s.quietCore k = true → ∃ t, exec (.retirePosition p true) s = .next t ∧ t.phys k = some q ∧ t.posState q = 1 ∧
        t.posState p.val = 4 ∧ t.dstate p.val = 4 ∧ t.dstate q = 0 ∧
        (∀ o, (t.pos q).pad.byte o = (s.pos p.val).pad.byte o) ∧ t.hbm = s.hbm ∧ ∀ j c n, t.sreg j c n = s.sreg j c n)) ∧
    (∀ k, s.slotOf p.val = some k → s.retiring p.val = true → s.spare (p.val / 26) = none → (∀ c, c < 4 → s.seqState k c = 0) →
      ∃ t, exec (.slotUnbind p) s = .next t ∧ t.phys k = none ∧ t.posState p.val = 4 ∧ t.dstate p.val = 4 ∧
        t.core k = CoreState.reset ∧ t.hbm = s.hbm) ∧
    ∀ (bank row : Nat) (rest : List (Nat × Nat)), (s.pos p.val).pad.cands = (bank, row) :: rest → s.procState (3 + p.val / 26) = 2 →
      let key := 2 * bank + (if row < 512 then 0 else 1)
      let used := Sparse.get (fun _ => 0) (s.pos p.val).pad.spares key
      used < 4 → ∃ t, exec (.scratchpadRowRepair p) s = .next t ∧ (t.pos p.val).pad.cands = rest ∧
        Sparse.get (fun _ => 0) (t.pos p.val).pad.spares key = used + 1 ∧
        t.fld (R.TOP_POS p.val) 24 16 = s.fld (R.TOP_POS p.val) 24 16 - 1 ∧
        (∀ q o, (t.pos q).pad.byte o = (s.pos q).pad.byte o) ∧ t.hbm = s.hbm ∧ t.cores = s.cores

/-! ## The package (chapter 19) -/

/-- Flash commands act in PHASE RECOVERY and report GS_1304 in any other, and GS_1206 where the device exceeds its time limit; a
sideband read returns its register in 8 bytes and a
write changes its register; a result read returns the last command's; a partial transaction has no effect; the TAP holds
BYPASS for every other code (R517, R522, R523, R525). -/
def Obligations.Sideband : Prop :=
  ∀ s : State, s.sys.sb.waits = false →
    let flash (a : Nat) (t : State) : Option Byte := Sparse.get (fun _ => none) t.sys.boot.bytes a
    let rest (t : State) : Prop := t.regs = s.regs ∧ t.cores = s.cores ∧ s.sameMem t
    let ended (code : Nat) (st : Status) (t : State) : Prop := t.sys.sb.status = st ∧ t.sys.sb.code = code
    let recovery := s.fld R.TOP_BOOT_STAT 63 60 = 8
    let spent (late : Bool) : Status := if late then 0x1206 else 0
    (∀ (addr : BitVec 32) (len : BitVec 8) (late : Bool), ∃ t, exec (.flashRead ⟨addr, late⟩ len) s = .next t ∧ rest t ∧
      t.sys.boot = s.sys.boot ∧ (¬ recovery → ended 0x20 0x1304 t) ∧
      (recovery → 1 ≤ len.toNat → len.toNat ≤ 128 → addr.toNat + len.toNat ≤ 0x408_0000 → ended 0x20 (spent late) t ∧
        (late = false → t.sys.sb.data.length = len.toNat ∧
          ∀ i x, i < len.toNat → flash (addr.toNat + i) s = some x → t.sys.sb.data[i]? = some x))) ∧
    (∀ (addr : BitVec 32) (late : Bool), ∃ t, exec (.flashErase ⟨addr, late⟩) s = .next t ∧ rest t ∧
      (¬ recovery → ended 0x21 0x1304 t ∧ t.sys.boot = s.sys.boot) ∧
      (recovery → addr.toNat % 0x1_0000 = 0 → addr.toNat < 0x408_0000 → ended 0x21 (spent late) t ∧
        ∀ a, if addr.toNat ≤ a ∧ a < addr.toNat + 0x1_0000 then late = false → flash a t = some 0xFF#8
          else flash a t = flash a s)) ∧
    (∀ (addr : BitVec 32) (data : List Byte) (late : Bool), ∃ t, exec (.flashProgram ⟨addr, late⟩ data) s = .next t ∧ rest t ∧
      (¬ recovery → ended 0x22 0x1304 t ∧ t.sys.boot = s.sys.boot) ∧
      (recovery → 1 ≤ data.length → data.length ≤ 128 → addr.toNat % 256 + data.length ≤ 256 →
        addr.toNat + data.length ≤ 0x408_0000 → ended 0x22 (spent late) t ∧
        (late = false → (∀ i, i < data.length → flash (addr.toNat + i) s = some 0xFF#8) →
          ∀ i, i < data.length → flash (addr.toNat + i) t = data[i]?) ∧
        ∀ a, (a < addr.toNat ∨ addr.toNat + data.length ≤ a) → flash a t = flash a s)) ∧
    (∀ (addr : Addr) (i : RegInfo), regInfo s.variant addr.toNat = some i → sbWide s.variant addr.toNat = i.wide →
      (i.wide = false → addr.toNat % 8 = 4 → wideAt s.variant (addr.toNat - 4) = false) →
      (s.sbCheck addr.toNat i.wide (s.sbReads addr.toNat) = 0 → ∃ t, exec (.regRead addr) s = .next t ∧ ended 0x10 0 t ∧
        t.cores = s.cores ∧ s.sameMem t ∧
        t.sys.sb.data = leBytes 8 ((s.regView .sideband addr.toNat).toNat % 2 ^ (if i.wide then 64 else 32))) ∧
      ∀ (v : Word64) (o : Nat), (blockOf addr.toNat = some (.pwr, o) ∧ 0x500 ≤ o ∨
          blockOf addr.toNat = some (.top, o) ∧ (o = 0xA30 ∨ o = 0xA38)) →
        s.sbCheck addr.toNat i.wide (sbWrites addr.toNat) = 0 → s.shadowLocked addr.toNat = false →
        (if i.wide then v else v &&& 0xFFFF_FFFF) &&& ~~~ BitVec.ofNat 64 i.mask = 0 →
        ∃ t, exec (.regWrite addr v) s = .next t ∧ ended 0x12 0 t ∧ s.wrote t addr.toNat i v ∧ s.regsBut t [addr.toNat] ∧
          t.cores = s.cores ∧ s.sameMem t) ∧
    (∃ t, exec .sidebandResultRead s = .next t ∧ rest t ∧
      t.sys.sb.out = leBytes 2 s.sys.sb.status.toNat ++ leBytes 1 s.sys.sb.code ++ s.sys.sb.data) ∧
    (∃ t, exec .smbusClockTimeout s = .next t ∧ t = s) ∧
    ∀ i : Option Tap, ∃ t, exec (.jtagInstruction i) s = .next t ∧ rest t ∧
      ((i = some .idcode ∨ i = some .sample) → some t.sys.tap = i) ∧
      ((i = some .extest ∨ i = some .pulse ∨ i = some .train) → s.sys.tapReset = true → some t.sys.tap = i) ∧
      ((i = some .extest ∨ i = some .pulse ∨ i = some .train) → s.sys.tapReset = false → t.sys.tap = .bypass) ∧
      ((i = none ∨ i = some .bypass) → t.sys.tap = .bypass)

/-! ## The whole machine -/

/-- After reset the register file and the memories are in canonical form, no command waits, Chorus is 0 and UNSYNC, no
firmware runs, every context is IDLE, and the registers below hold the reset values of their field tables. -/
def Obligations.AfterReset : Prop :=
  let s := State.reset
  s.canonical ∧ s.pending = [] ∧ s.chorus = 0 ∧ s.chrState = 0 ∧ s.fld R.TOP_BOOT_STAT 63 60 = 0 ∧
    (∀ i : ProcId, s.procState i.val = 0 ∧ s.fld (R.FW_WDT i.val) 15 0 = 100 ∧ s.bitOf (R.FW_WDT i.val) 31 = true) ∧
    (∀ (l : LinkId), s.linkState l.val = 0) ∧ (∀ ch : ChanId, s.lfState ch.val = 0 ∧ s.fld (R.LF_CH_CFG ch.val) 3 0 = 4) ∧
    (∀ (k : CoreId) (c : CtxId), s.seqState k.val c.val = 0 ∧ s.runReg k.val 5 = 0) ∧ s.fw.numVfs = 0 ∧
    s.reg R.TOP_REG_ERR = 0 ∧ ∀ a, s.hbmWrote a = false

/-- Every step keeps the canonical form of the register file and of every memory. -/
def Obligations.EveryStepKeepsCanonicalForm : Prop :=
  ∀ s t : State, s.canonical → step s = .next t → t.canonical

/-- Every command ends in a next state that leaves the queue of waiting commands and the fuses' variant as they were. -/
def Obligations.CommandsKeepQueueAndVariant : Prop :=
  ∀ (c : Instr) (s : State), ∃ t, exec c s = .next t ∧ t.pending = s.pending ∧ t.variant = s.variant
end

