-- ==== Sys2Proof/Laws/Bits.lean ====
section
/-!
SUPPORT. Laws of bit fields: what a field reads as after a field was put, and that a field is below its bound.
-/

namespace Sys2Proof.Machine

theorem bits_testBit {n : Nat} (w : BitVec n) (hi lo j : Nat) :
    (bits w hi lo).testBit j = (decide (j < hi + 1 - lo) && w.getLsbD (lo + j)) := by
  simp [bits, natBits, Nat.testBit_mod_two_pow, BitVec.testBit_toNat]

theorem bits_lt {n : Nat} (w : BitVec n) (hi lo : Nat) : bits w hi lo < 2 ^ (hi + 1 - lo) :=
  Nat.mod_lt _ (Nat.two_pow_pos _)

theorem fieldMask_testBit (hi lo i : Nat) : (fieldMask hi lo).testBit i = (decide (lo ≤ i) && decide (i - lo < hi + 1 - lo)) := by
  simp [fieldMask, Nat.testBit_shiftLeft, Nat.testBit_two_pow_sub_one]

/-- One bit of a word with a field put into it. -/
theorem setBits_getLsbD {n : Nat} (w : BitVec n) (hi lo x i : Nat) :
    (setBits w hi lo x).getLsbD i =
      (decide (i < n) && if lo ≤ i ∧ i ≤ hi then x.testBit (i - lo) else w.getLsbD i) := by
  unfold setBits
  rw [BitVec.getLsbD_or, BitVec.getLsbD_and, BitVec.getLsbD_not, BitVec.getLsbD_ofNat, BitVec.getLsbD_ofNat,
    fieldMask_testBit, Nat.testBit_shiftLeft, Nat.testBit_mod_two_pow]
  have hw : n ≤ i → w.getLsbD i = false := BitVec.getLsbD_of_ge w i
  generalize w.getLsbD i = b at hw ⊢
  by_cases hn : i < n
  · by_cases h1 : lo ≤ i <;> by_cases h2 : i ≤ hi
    · have h3 : i - lo < hi + 1 - lo := by omega
      simp [hn, h1, h2, h3]
    · have h3 : ¬ i - lo < hi + 1 - lo := by omega
      simp [hn, h1, h2, h3]
    · simp [hn, h1]
    · simp [hn, h1]
  · simp [hn, hw (by omega)]

/-- A field reads as what was put into it. -/
theorem bits_setBits_self {n : Nat} (w : BitVec n) (hi lo x : Nat) (h : hi < n) :
    bits (setBits w hi lo x) hi lo = x % 2 ^ (hi + 1 - lo) := by
  apply Nat.eq_of_testBit_eq
  intro j
  rw [bits_testBit, setBits_getLsbD, Nat.testBit_mod_two_pow]
  by_cases hj : j < hi + 1 - lo
  · have h1 : lo + j < n := by omega
    have h2 : lo + j ≤ hi := by omega
    simp [hj, h1, h2]
  · simp [hj]

/-- A field apart from the one put reads as before. -/
theorem bits_setBits_disj {n : Nat} (w : BitVec n) (hi lo x hi' lo' : Nat) (h : hi' < lo ∨ hi < lo') :
    bits (setBits w hi lo x) hi' lo' = bits w hi' lo' := by
  apply Nat.eq_of_testBit_eq
  intro j
  rw [bits_testBit, bits_testBit, setBits_getLsbD]
  by_cases hj : j < hi' + 1 - lo'
  · by_cases hn : lo' + j < n
    · have h2 : ¬ (lo ≤ lo' + j ∧ lo' + j ≤ hi) := by omega
      simp [hj, hn, h2]
    · simp [hj, hn, BitVec.getLsbD_of_ge _ _ (Nat.le_of_not_lt hn)]
  · simp [hj]

/-- A bit apart from the field put is as before. -/
theorem bit_setBits_disj {n : Nat} (w : BitVec n) (hi lo x i : Nat) (h : i < lo ∨ hi < i) :
    bit (setBits w hi lo x) i = bit w i := by
  unfold bit
  rw [setBits_getLsbD]
  have h2 : ¬ (lo ≤ i ∧ i ≤ hi) := by omega
  by_cases hn : i < n
  · simp [hn, h2]
  · simp [hn, BitVec.getLsbD_of_ge _ _ (Nat.le_of_not_lt hn)]

/-- A bit put on its own. -/
theorem bit_setBits_self {n : Nat} (w : BitVec n) (i x : Nat) (h : i < n) :
    bit (setBits w i i x) i = x.testBit 0 := by
  unfold bit
  rw [setBits_getLsbD]
  simp [h]

end Sys2Proof.Machine
end

