-- ==== Sys2Proof/Laws/Sparse.lean ====
section
/-!
SUPPORT. Laws of sparse maps: what a read gives after each operation, and that every operation keeps the canonical form.
-/

namespace Sys2Proof.Machine

variable {α : Type}

@[simp] theorem Sparse.get_nil (d : Nat → α) (k : Nat) : Sparse.get d [] k = d k := rfl

theorem Sparse.get_erase (d : Nat → α) (m : Sparse α) (k j : Nat) :
    Sparse.get d (Sparse.erase m k) j = if j = k then d j else Sparse.get d m j := by
  induction m with
  | nil => simp [Sparse.erase, Sparse.get]
  | cons e m ih =>
    obtain ⟨a, x⟩ := e
    by_cases h : k = a
    · subst h
      by_cases hj : j = k
      · subst hj; simpa [Sparse.erase] using ih
      · simp [Sparse.erase, Sparse.get, ih, hj]
    · by_cases hj : j = a
      · subst hj
        simp [Sparse.erase, Sparse.get, h, Ne.symm h]
      · simp [Sparse.erase, Sparse.get, h, hj, ih]

theorem Sparse.get_insert_ne (d : Nat → α) (m : Sparse α) {k j : Nat} (v : α) (h : j ≠ k) :
    Sparse.get d (Sparse.insert m k v) j = Sparse.get d m j := by
  induction m with
  | nil => simp [Sparse.insert, Sparse.get, h]
  | cons e m ih =>
    obtain ⟨a, x⟩ := e
    simp only [Sparse.insert]
    split <;> simp [Sparse.get, h, ih]

theorem Sparse.get_insert_self (d : Nat → α) (m : Sparse α) (k : Nat) (v : α) :
    Sparse.get d (Sparse.insert (Sparse.erase m k) k v) k = v := by
  induction m with
  | nil => simp [Sparse.erase, Sparse.insert, Sparse.get]
  | cons e m ih =>
    obtain ⟨a, x⟩ := e
    by_cases h : k = a
    · simpa [Sparse.erase, h] using h ▸ ih
    · simp only [Sparse.erase, h, if_false, Sparse.insert]
      split <;> simp [Sparse.get, h, ih]

/-- A read after a write. -/
theorem Sparse.get_set [DecidableEq α] (d : Nat → α) (m : Sparse α) (k j : Nat) (v : α) :
    Sparse.get d (Sparse.set d m k v) j = if j = k then v else Sparse.get d m j := by
  unfold Sparse.set
  by_cases hv : v = d k
  · by_cases hj : j = k <;> simp [hv, hj, Sparse.get_erase]
  · by_cases hj : j = k
    · subst hj; simp [hv, Sparse.get_insert_self]
    · simp [hv, hj, Sparse.get_insert_ne, Sparse.get_erase]

@[simp] theorem Sparse.get_set_self [DecidableEq α] (d : Nat → α) (m : Sparse α) (k : Nat) (v : α) :
    Sparse.get d (Sparse.set d m k v) k = v := by simp [Sparse.get_set]

theorem Sparse.get_set_ne [DecidableEq α] (d : Nat → α) (m : Sparse α) {k j : Nat} (v : α) (h : j ≠ k) :
    Sparse.get d (Sparse.set d m k v) j = Sparse.get d m j := by simp [Sparse.get_set, h]

theorem Sparse.get_drop (d : Nat → α) (m : Sparse α) (p : Nat → Bool) (j : Nat) :
    Sparse.get d (Sparse.drop m p) j = if p j then d j else Sparse.get d m j := by
  induction m with
  | nil => simp [Sparse.drop, Sparse.get]
  | cons e m ih =>
    obtain ⟨a, x⟩ := e
    unfold Sparse.drop at ih ⊢
    by_cases hp : p a
    · by_cases hj : j = a
      · subst hj; simp [hp, ih]
      · simp [hp, ih, Sparse.get, hj]
    · by_cases hj : j = a
      · subst hj; simp [hp, Sparse.get]
      · simp [hp, ih, Sparse.get, hj]

/-- A read outside a run of writes. -/
theorem Sparse.get_append (d : Nat → α) (m n : Sparse α) (j : Nat) (h : ∀ e ∈ m, e.1 ≠ j) :
    Sparse.get d (m ++ n) j = Sparse.get d n j := by
  induction m with
  | nil => rfl
  | cons e m ih =>
    obtain ⟨a, x⟩ := e
    have ha : j ≠ a := fun c => h (a, x) (by simp) c.symm
    simp only [List.cons_append, Sparse.get, if_neg ha]
    exact ih (fun e he => h e (by simp [he]))

theorem Sparse.get_append_right (d : Nat → α) (m n : Sparse α) (j : Nat) (h : ∀ e ∈ n, e.1 ≠ j) :
    Sparse.get d (m ++ n) j = Sparse.get d m j := by
  induction m with
  | nil =>
    have := Sparse.get_append d n [] j h
    simpa using this
  | cons e m ih =>
    obtain ⟨a, x⟩ := e
    simp only [List.cons_append, Sparse.get, ih]

theorem Sparse.mem_run [DecidableEq α] (d : Nat → α) (l : List α) (k : Nat) {e : Nat × α} (h : e ∈ Sparse.run d k l) :
    k ≤ e.1 ∧ e.1 < k + l.length := by
  induction l generalizing k with
  | nil => simp [Sparse.run] at h
  | cons v l ih =>
    simp only [List.length_cons]
    unfold Sparse.run at h
    split at h
    · have := ih (k + 1) h
      omega
    · rcases List.mem_cons.mp h with rfl | h
      · simp
      · have := ih (k + 1) h
        omega

theorem Sparse.get_run [DecidableEq α] (d : Nat → α) (l : List α) (k j : Nat) :
    Sparse.get d (Sparse.run d k l) j = if k ≤ j ∧ j < k + l.length then l.getD (j - k) (d j) else d j := by
  induction l generalizing k with
  | nil =>
    rw [if_neg (by simp only [List.length_nil]; omega)]
    rfl
  | cons v l ih =>
    unfold Sparse.run
    by_cases hj : j = k
    · subst hj
      have hb : j ≤ j ∧ j < j + (v :: l).length := ⟨Nat.le_refl _, by simp only [List.length_cons]; omega⟩
      simp only [if_pos hb, Nat.sub_self, List.getD_cons_zero]
      by_cases hv : v = d j
      · rw [if_pos hv, ih, if_neg (by omega), hv]
      · rw [if_neg hv]
        simp [Sparse.get]
    · have e : (v :: l).getD (j - k) (d j) = if k < j then l.getD (j - (k + 1)) (d j) else v := by
        split
        · rename_i hk
          obtain ⟨i, rfl⟩ : ∃ i, j = k + (i + 1) := ⟨j - k - 1, by omega⟩
          have : k + (i + 1) - (k + 1) = i := by omega
          simp [this]
        · have : j - k = 0 := by omega
          simp [this]
      have h2 : Sparse.get d (if v = d k then Sparse.run d (k + 1) l else (k, v) :: Sparse.run d (k + 1) l) j =
          Sparse.get d (Sparse.run d (k + 1) l) j := by
        split
        · rfl
        · simp [Sparse.get, hj]
      rw [h2, ih, e]
      simp only [List.length_cons]
      by_cases hk : k < j
      · by_cases hl : j < k + 1 + l.length
        · rw [if_pos ⟨hk, hl⟩, if_pos ⟨by omega, by omega⟩, if_pos hk]
        · rw [if_neg (by omega), if_neg (by omega)]
      · rw [if_neg (by omega), if_neg (by omega)]

theorem Sparse.get_filter_of_not (d : Nat → α) (m : Sparse α) (p : Nat → Bool) (j : Nat) (h : p j = true) :
    Sparse.get d (m.filter (fun e => p e.1)) j = Sparse.get d m j := by
  induction m with
  | nil => rfl
  | cons e m ih =>
    obtain ⟨a, x⟩ := e
    by_cases hj : j = a
    · subst hj
      simp [h, Sparse.get]
    · cases hp : p a <;> simp [hp, Sparse.get, hj, ih]

/-- A long write leaves its values at its keys and every other key as it was. -/
theorem Sparse.get_putRun [DecidableEq α] (d : Nat → α) (m : Sparse α) (k : Nat) (l : List α) (j : Nat) :
    Sparse.get d (Sparse.putRun d m k l) j = if k ≤ j ∧ j < k + l.length then l.getD (j - k) (d j) else Sparse.get d m j := by
  unfold Sparse.putRun
  by_cases h1 : j < k
  · rw [Sparse.get_append_right, Sparse.get_filter_of_not d m (fun a => decide (a < k)) j (by simpa using h1), if_neg (by omega)]
    intro e he
    rcases List.mem_append.mp he with h | h
    · have := Sparse.mem_run d l k h
      omega
    · simp at h
      omega
  · rw [Sparse.get_append]
    · by_cases h2 : j < k + l.length
      · rw [Sparse.get_append_right, Sparse.get_run]
        · split <;> rename_i h
          · rfl
          · omega
        · intro e he
          simp at he
          omega
      · rw [Sparse.get_append, Sparse.get_filter_of_not d m (fun a => decide (k + l.length ≤ a)) j (by simp; omega), if_neg (by omega)]
        intro e he
        have := Sparse.mem_run d l k he
        omega
    · intro e he
      simp at he
      omega

theorem Sparse.get_setList_of_lt [DecidableEq α] (d : Nat → α) (vs : List α) (m : Sparse α) (k : Nat) {j : Nat} (h : j < k) :
    Sparse.get d (Sparse.setList d m k vs) j = Sparse.get d m j := by
  induction vs generalizing m k with
  | nil => rfl
  | cons v vs ih =>
    rw [Sparse.setList, ih _ _ (by omega), Sparse.get_set_ne _ _ _ (by omega)]

/-- A read after a run of writes. -/
theorem Sparse.get_setList [DecidableEq α] (d : Nat → α) (vs : List α) (m : Sparse α) (k j : Nat) :
    Sparse.get d (Sparse.setList d m k vs) j =
      if k ≤ j then (vs[j - k]?).getD (Sparse.get d m j) else Sparse.get d m j := by
  induction vs generalizing m k with
  | nil => simp [Sparse.setList]
  | cons v vs ih =>
    rw [Sparse.setList, ih]
    by_cases h1 : k + 1 ≤ j
    · have h2 : k ≤ j := by omega
      have h3 : j - k = (j - (k + 1)) + 1 := by omega
      simp only [h1, h2, if_true, h3, List.getElem?_cons_succ]
      rw [Sparse.get_set_ne _ _ _ (by omega)]
    · by_cases h2 : j = k
      · subst h2; simp [h1]
      · have h3 : ¬ k ≤ j := by omega
        simp [h1, h3, Sparse.get_set_ne _ _ _ h2]

/-! ## The canonical form -/

section wf
variable [DecidableEq α] {d : Nat → α}

theorem Sparse.wfFrom_mono {lo hi : Nat} {m : Sparse α} (h : lo ≤ hi) (hm : Sparse.wfFrom d hi m = true) :
    Sparse.wfFrom d lo m = true := by
  cases m with
  | nil => rfl
  | cons e m =>
    obtain ⟨a, x⟩ := e
    simp only [Sparse.wfFrom, Bool.and_eq_true, decide_eq_true_eq] at hm ⊢
    exact ⟨⟨by omega, hm.1.2⟩, hm.2⟩

theorem Sparse.wfFrom_filter {lo : Nat} {m : Sparse α} (p : Nat × α → Bool) (hm : Sparse.wfFrom d lo m = true) :
    Sparse.wfFrom d lo (m.filter p) = true := by
  induction m generalizing lo with
  | nil => rfl
  | cons e m ih =>
    obtain ⟨a, x⟩ := e
    simp only [Sparse.wfFrom, Bool.and_eq_true, decide_eq_true_eq] at hm
    rw [List.filter_cons]
    split
    · simp only [Sparse.wfFrom, Bool.and_eq_true, decide_eq_true_eq]
      exact ⟨hm.1, ih hm.2⟩
    · exact ih (Sparse.wfFrom_mono (by omega) hm.2)

omit [DecidableEq α] in
theorem Sparse.erase_eq_filter (m : Sparse α) (k : Nat) : Sparse.erase m k = m.filter (fun e => e.1 != k) := by
  induction m with
  | nil => rfl
  | cons e m ih =>
    obtain ⟨a, x⟩ := e
    by_cases h : k = a
    · simp [Sparse.erase, h, h ▸ ih]
    · simp [Sparse.erase, h, ih, Ne.symm h]

theorem Sparse.wfFrom_insert {lo k : Nat} {v : α} {m : Sparse α} (hm : Sparse.wfFrom d lo m = true) (hk : lo ≤ k)
    (hv : v ≠ d k) (hno : ∀ e ∈ m, e.1 ≠ k) : Sparse.wfFrom d lo (Sparse.insert m k v) = true := by
  induction m generalizing lo with
  | nil => simp [Sparse.insert, Sparse.wfFrom, hk, hv]
  | cons e m ih =>
    obtain ⟨a, x⟩ := e
    simp only [Sparse.wfFrom, Bool.and_eq_true, decide_eq_true_eq] at hm
    have hne : a ≠ k := hno (a, x) (by simp)
    simp only [Sparse.insert]
    split
    · simp only [Sparse.wfFrom, Bool.and_eq_true, decide_eq_true_eq]
      exact ⟨⟨hk, hv⟩, ⟨by omega, hm.1.2⟩, hm.2⟩
    · simp only [Sparse.wfFrom, Bool.and_eq_true, decide_eq_true_eq]
      exact ⟨hm.1, ih hm.2 (by omega) (fun e he => hno e (by simp [he]))⟩

/-- A write keeps the canonical form. -/
theorem Sparse.wf_set {m : Sparse α} (k : Nat) (v : α) (hm : Sparse.wf d m = true) :
    Sparse.wf d (Sparse.set d m k v) = true := by
  unfold Sparse.wf Sparse.set at *
  rw [Sparse.erase_eq_filter]
  split
  · exact Sparse.wfFrom_filter _ hm
  · exact Sparse.wfFrom_insert (Sparse.wfFrom_filter _ hm) (by omega) ‹_› (fun e he => by simpa using (List.mem_filter.mp he).2)

/-- A run of writes keeps it. -/
theorem Sparse.wf_setList {m : Sparse α} (k : Nat) (vs : List α) (hm : Sparse.wf d m = true) :
    Sparse.wf d (Sparse.setList d m k vs) = true := by
  induction vs generalizing m k with
  | nil => exact hm
  | cons v vs ih => exact ih _ (Sparse.wf_set _ _ hm)

/-- Leaving entries out keeps it. -/
theorem Sparse.wf_filter {m : Sparse α} (p : Nat × α → Bool) (hm : Sparse.wf d m = true) :
    Sparse.wf d (m.filter p) = true := Sparse.wfFrom_filter p hm

theorem Sparse.wf_drop {m : Sparse α} (p : Nat → Bool) (hm : Sparse.wf d m = true) :
    Sparse.wf d (Sparse.drop m p) = true := Sparse.wf_filter _ hm

@[simp] theorem Sparse.wf_nil : Sparse.wf d [] = true := rfl

theorem Sparse.wfFrom_congr {e : Nat → α} {lo : Nat} {m : Sparse α} (h : ∀ x ∈ m, d x.1 = e x.1)
    (hm : Sparse.wfFrom d lo m = true) : Sparse.wfFrom e lo m = true := by
  induction m generalizing lo with
  | nil => rfl
  | cons x m ih =>
    obtain ⟨a, v⟩ := x
    simp only [Sparse.wfFrom, Bool.and_eq_true, decide_eq_true_eq] at hm ⊢
    exact ⟨⟨hm.1.1, (h (a, v) (by simp)) ▸ hm.1.2⟩, ih (fun y hy => h y (by simp [hy])) hm.2⟩

/-- What an unlisted key reads as may change away from the keys listed. -/
theorem Sparse.wf_congr {e : Nat → α} {m : Sparse α} (h : ∀ x ∈ m, d x.1 = e x.1) (hm : Sparse.wf d m = true) :
    Sparse.wf e m = true := Sparse.wfFrom_congr h hm

omit [DecidableEq α] in
theorem Sparse.mem_insert {k : Nat} {v : α} {m : Sparse α} {x : Nat × α} (h : x ∈ Sparse.insert m k v) : x = (k, v) ∨ x ∈ m := by
  induction m with
  | nil => simpa [Sparse.insert] using h
  | cons e m ih =>
    obtain ⟨a, y⟩ := e
    simp only [Sparse.insert] at h
    split at h
    · simpa using h
    · rcases List.mem_cons.mp h with h | h
      · simp [h]
      · rcases ih h with h | h <;> simp [h]

/-- An entry of a map after a write is the one written or an old one. -/
theorem Sparse.mem_set {k : Nat} {v : α} {m : Sparse α} {x : Nat × α} (h : x ∈ Sparse.set d m k v) : x = (k, v) ∨ x ∈ m := by
  unfold Sparse.set at h
  rw [Sparse.erase_eq_filter] at h
  split at h
  · exact .inr (List.mem_filter.mp h).1
  · exact (Sparse.mem_insert h).imp id (fun h => (List.mem_filter.mp h).1)

end wf

end Sys2Proof.Machine
end

