-- ==== Sys2Proof/Laws/State.lean ====
section
/-!
SUPPORT. What each basic update of the state puts and what it leaves alone: one lemma per field per update. No later proof
unfolds a record update.
-/

namespace Sys2Proof.Machine

variable (s : State)

@[simp] theorem State.setHbm_hbm (x : HbmState) : (s.setHbm x).hbm = x := (rfl)
@[simp] theorem State.setFe_fe (x : FeState) : (s.setFe x).fe = x := (rfl)
@[simp] theorem State.setChr_chr (x : ChrState) : (s.setChr x).chr = x := (rfl)
@[simp] theorem State.setFw_fw (x : FwState) : (s.setFw x).fw = x := (rfl)
@[simp] theorem State.setSys_sys (x : SysState) : (s.setSys x).sys = x := (rfl)
@[simp] theorem State.setNet_net (x : List Packet) : (s.setNet x).net = x := (rfl)
@[simp] theorem State.setChorus_chorus (x : Chorus) : (s.setChorus x).chorus = x := (rfl)
@[simp] theorem State.setLfTlb_lfTlb (x : List TlbEntry) : (s.setLfTlb x).lfTlb = x := (rfl)
@[simp] theorem State.setHostOut_hostOut (x : List (Nat × Nat × List Byte)) : (s.setHostOut x).hostOut = x := (rfl)
@[simp] theorem State.setCpls_cpls (x : List (Nat × HostCpl)) : (s.setCpls x).cpls = x := (rfl)
@[simp] theorem State.setMsix_msix (x : List (Nat × Nat)) : (s.setMsix x).msix = x := (rfl)

@[simp] theorem State.setReg_variant (a : Nat) (v : Word64) : (s.setReg a v).variant = s.variant := (rfl)
@[simp] theorem State.setReg_pending (a : Nat) (v : Word64) : (s.setReg a v).pending = s.pending := (rfl)
@[simp] theorem State.setReg_chorus (a : Nat) (v : Word64) : (s.setReg a v).chorus = s.chorus := (rfl)
@[simp] theorem State.setReg_ns (a : Nat) (v : Word64) : (s.setReg a v).ns = s.ns := (rfl)
@[simp] theorem State.setReg_free (a : Nat) (v : Word64) : (s.setReg a v).free = s.free := (rfl)
@[simp] theorem State.setReg_cores (a : Nat) (v : Word64) : (s.setReg a v).cores = s.cores := (rfl)
@[simp] theorem State.setReg_posns (a : Nat) (v : Word64) : (s.setReg a v).posns = s.posns := (rfl)
@[simp] theorem State.setReg_hbm (a : Nat) (v : Word64) : (s.setReg a v).hbm = s.hbm := (rfl)
@[simp] theorem State.setReg_fe (a : Nat) (v : Word64) : (s.setReg a v).fe = s.fe := (rfl)
@[simp] theorem State.setReg_chr (a : Nat) (v : Word64) : (s.setReg a v).chr = s.chr := (rfl)
@[simp] theorem State.setReg_fw (a : Nat) (v : Word64) : (s.setReg a v).fw = s.fw := (rfl)
@[simp] theorem State.setReg_sys (a : Nat) (v : Word64) : (s.setReg a v).sys = s.sys := (rfl)
@[simp] theorem State.setReg_lfTlb (a : Nat) (v : Word64) : (s.setReg a v).lfTlb = s.lfTlb := (rfl)
@[simp] theorem State.setReg_net (a : Nat) (v : Word64) : (s.setReg a v).net = s.net := (rfl)
@[simp] theorem State.setReg_hostOut (a : Nat) (v : Word64) : (s.setReg a v).hostOut = s.hostOut := (rfl)
@[simp] theorem State.setReg_cpls (a : Nat) (v : Word64) : (s.setReg a v).cpls = s.cpls := (rfl)
@[simp] theorem State.setReg_msix (a : Nat) (v : Word64) : (s.setReg a v).msix = s.msix := (rfl)
@[simp] theorem State.setReg_diag (a : Nat) (v : Word64) : (s.setReg a v).diag = s.diag := (rfl)

@[simp] theorem State.setFld_variant (a hi lo x : Nat) : (s.setFld a hi lo x).variant = s.variant := (rfl)
@[simp] theorem State.setFld_pending (a hi lo x : Nat) : (s.setFld a hi lo x).pending = s.pending := (rfl)
@[simp] theorem State.setFld_chorus (a hi lo x : Nat) : (s.setFld a hi lo x).chorus = s.chorus := (rfl)
@[simp] theorem State.setFld_ns (a hi lo x : Nat) : (s.setFld a hi lo x).ns = s.ns := (rfl)
@[simp] theorem State.setFld_free (a hi lo x : Nat) : (s.setFld a hi lo x).free = s.free := (rfl)
@[simp] theorem State.setFld_cores (a hi lo x : Nat) : (s.setFld a hi lo x).cores = s.cores := (rfl)
@[simp] theorem State.setFld_posns (a hi lo x : Nat) : (s.setFld a hi lo x).posns = s.posns := (rfl)
@[simp] theorem State.setFld_hbm (a hi lo x : Nat) : (s.setFld a hi lo x).hbm = s.hbm := (rfl)
@[simp] theorem State.setFld_fe (a hi lo x : Nat) : (s.setFld a hi lo x).fe = s.fe := (rfl)
@[simp] theorem State.setFld_chr (a hi lo x : Nat) : (s.setFld a hi lo x).chr = s.chr := (rfl)
@[simp] theorem State.setFld_fw (a hi lo x : Nat) : (s.setFld a hi lo x).fw = s.fw := (rfl)
@[simp] theorem State.setFld_sys (a hi lo x : Nat) : (s.setFld a hi lo x).sys = s.sys := (rfl)
@[simp] theorem State.setFld_lfTlb (a hi lo x : Nat) : (s.setFld a hi lo x).lfTlb = s.lfTlb := (rfl)
@[simp] theorem State.setFld_net (a hi lo x : Nat) : (s.setFld a hi lo x).net = s.net := (rfl)
@[simp] theorem State.setFld_hostOut (a hi lo x : Nat) : (s.setFld a hi lo x).hostOut = s.hostOut := (rfl)
@[simp] theorem State.setFld_cpls (a hi lo x : Nat) : (s.setFld a hi lo x).cpls = s.cpls := (rfl)
@[simp] theorem State.setFld_msix (a hi lo x : Nat) : (s.setFld a hi lo x).msix = s.msix := (rfl)
@[simp] theorem State.setFld_diag (a hi lo x : Nat) : (s.setFld a hi lo x).diag = s.diag := (rfl)

@[simp] theorem State.satInc_variant (a hi lo n : Nat) : (s.satInc a hi lo n).variant = s.variant := (rfl)
@[simp] theorem State.satInc_pending (a hi lo n : Nat) : (s.satInc a hi lo n).pending = s.pending := (rfl)
@[simp] theorem State.satInc_chorus (a hi lo n : Nat) : (s.satInc a hi lo n).chorus = s.chorus := (rfl)
@[simp] theorem State.satInc_ns (a hi lo n : Nat) : (s.satInc a hi lo n).ns = s.ns := (rfl)
@[simp] theorem State.satInc_free (a hi lo n : Nat) : (s.satInc a hi lo n).free = s.free := (rfl)
@[simp] theorem State.satInc_cores (a hi lo n : Nat) : (s.satInc a hi lo n).cores = s.cores := (rfl)
@[simp] theorem State.satInc_posns (a hi lo n : Nat) : (s.satInc a hi lo n).posns = s.posns := (rfl)
@[simp] theorem State.satInc_hbm (a hi lo n : Nat) : (s.satInc a hi lo n).hbm = s.hbm := (rfl)
@[simp] theorem State.satInc_fe (a hi lo n : Nat) : (s.satInc a hi lo n).fe = s.fe := (rfl)
@[simp] theorem State.satInc_chr (a hi lo n : Nat) : (s.satInc a hi lo n).chr = s.chr := (rfl)
@[simp] theorem State.satInc_fw (a hi lo n : Nat) : (s.satInc a hi lo n).fw = s.fw := (rfl)
@[simp] theorem State.satInc_sys (a hi lo n : Nat) : (s.satInc a hi lo n).sys = s.sys := (rfl)
@[simp] theorem State.satInc_lfTlb (a hi lo n : Nat) : (s.satInc a hi lo n).lfTlb = s.lfTlb := (rfl)
@[simp] theorem State.satInc_net (a hi lo n : Nat) : (s.satInc a hi lo n).net = s.net := (rfl)
@[simp] theorem State.satInc_hostOut (a hi lo n : Nat) : (s.satInc a hi lo n).hostOut = s.hostOut := (rfl)
@[simp] theorem State.satInc_cpls (a hi lo n : Nat) : (s.satInc a hi lo n).cpls = s.cpls := (rfl)
@[simp] theorem State.satInc_msix (a hi lo n : Nat) : (s.satInc a hi lo n).msix = s.msix := (rfl)
@[simp] theorem State.satInc_diag (a hi lo n : Nat) : (s.satInc a hi lo n).diag = s.diag := (rfl)

@[simp] theorem State.wrapInc_variant (a hi lo n : Nat) : (s.wrapInc a hi lo n).variant = s.variant := (rfl)
@[simp] theorem State.wrapInc_pending (a hi lo n : Nat) : (s.wrapInc a hi lo n).pending = s.pending := (rfl)
@[simp] theorem State.wrapInc_chorus (a hi lo n : Nat) : (s.wrapInc a hi lo n).chorus = s.chorus := (rfl)
@[simp] theorem State.wrapInc_ns (a hi lo n : Nat) : (s.wrapInc a hi lo n).ns = s.ns := (rfl)
@[simp] theorem State.wrapInc_free (a hi lo n : Nat) : (s.wrapInc a hi lo n).free = s.free := (rfl)
@[simp] theorem State.wrapInc_cores (a hi lo n : Nat) : (s.wrapInc a hi lo n).cores = s.cores := (rfl)
@[simp] theorem State.wrapInc_posns (a hi lo n : Nat) : (s.wrapInc a hi lo n).posns = s.posns := (rfl)
@[simp] theorem State.wrapInc_hbm (a hi lo n : Nat) : (s.wrapInc a hi lo n).hbm = s.hbm := (rfl)
@[simp] theorem State.wrapInc_fe (a hi lo n : Nat) : (s.wrapInc a hi lo n).fe = s.fe := (rfl)
@[simp] theorem State.wrapInc_chr (a hi lo n : Nat) : (s.wrapInc a hi lo n).chr = s.chr := (rfl)
@[simp] theorem State.wrapInc_fw (a hi lo n : Nat) : (s.wrapInc a hi lo n).fw = s.fw := (rfl)
@[simp] theorem State.wrapInc_sys (a hi lo n : Nat) : (s.wrapInc a hi lo n).sys = s.sys := (rfl)
@[simp] theorem State.wrapInc_lfTlb (a hi lo n : Nat) : (s.wrapInc a hi lo n).lfTlb = s.lfTlb := (rfl)
@[simp] theorem State.wrapInc_net (a hi lo n : Nat) : (s.wrapInc a hi lo n).net = s.net := (rfl)
@[simp] theorem State.wrapInc_hostOut (a hi lo n : Nat) : (s.wrapInc a hi lo n).hostOut = s.hostOut := (rfl)
@[simp] theorem State.wrapInc_cpls (a hi lo n : Nat) : (s.wrapInc a hi lo n).cpls = s.cpls := (rfl)
@[simp] theorem State.wrapInc_msix (a hi lo n : Nat) : (s.wrapInc a hi lo n).msix = s.msix := (rfl)
@[simp] theorem State.wrapInc_diag (a hi lo n : Nat) : (s.wrapInc a hi lo n).diag = s.diag := (rfl)

@[simp] theorem State.setBitOf_variant (a i : Nat) : (s.setBitOf a i).variant = s.variant := (rfl)
@[simp] theorem State.setBitOf_pending (a i : Nat) : (s.setBitOf a i).pending = s.pending := (rfl)
@[simp] theorem State.setBitOf_chorus (a i : Nat) : (s.setBitOf a i).chorus = s.chorus := (rfl)
@[simp] theorem State.setBitOf_ns (a i : Nat) : (s.setBitOf a i).ns = s.ns := (rfl)
@[simp] theorem State.setBitOf_free (a i : Nat) : (s.setBitOf a i).free = s.free := (rfl)
@[simp] theorem State.setBitOf_cores (a i : Nat) : (s.setBitOf a i).cores = s.cores := (rfl)
@[simp] theorem State.setBitOf_posns (a i : Nat) : (s.setBitOf a i).posns = s.posns := (rfl)
@[simp] theorem State.setBitOf_hbm (a i : Nat) : (s.setBitOf a i).hbm = s.hbm := (rfl)
@[simp] theorem State.setBitOf_fe (a i : Nat) : (s.setBitOf a i).fe = s.fe := (rfl)
@[simp] theorem State.setBitOf_chr (a i : Nat) : (s.setBitOf a i).chr = s.chr := (rfl)
@[simp] theorem State.setBitOf_fw (a i : Nat) : (s.setBitOf a i).fw = s.fw := (rfl)
@[simp] theorem State.setBitOf_sys (a i : Nat) : (s.setBitOf a i).sys = s.sys := (rfl)
@[simp] theorem State.setBitOf_lfTlb (a i : Nat) : (s.setBitOf a i).lfTlb = s.lfTlb := (rfl)
@[simp] theorem State.setBitOf_net (a i : Nat) : (s.setBitOf a i).net = s.net := (rfl)
@[simp] theorem State.setBitOf_hostOut (a i : Nat) : (s.setBitOf a i).hostOut = s.hostOut := (rfl)
@[simp] theorem State.setBitOf_cpls (a i : Nat) : (s.setBitOf a i).cpls = s.cpls := (rfl)
@[simp] theorem State.setBitOf_msix (a i : Nat) : (s.setBitOf a i).msix = s.msix := (rfl)
@[simp] theorem State.setBitOf_diag (a i : Nat) : (s.setBitOf a i).diag = s.diag := (rfl)

@[simp] theorem State.resetReg_variant (a : Nat) : (s.resetReg a).variant = s.variant := (rfl)
@[simp] theorem State.resetReg_pending (a : Nat) : (s.resetReg a).pending = s.pending := (rfl)
@[simp] theorem State.resetReg_chorus (a : Nat) : (s.resetReg a).chorus = s.chorus := (rfl)
@[simp] theorem State.resetReg_ns (a : Nat) : (s.resetReg a).ns = s.ns := (rfl)
@[simp] theorem State.resetReg_free (a : Nat) : (s.resetReg a).free = s.free := (rfl)
@[simp] theorem State.resetReg_cores (a : Nat) : (s.resetReg a).cores = s.cores := (rfl)
@[simp] theorem State.resetReg_posns (a : Nat) : (s.resetReg a).posns = s.posns := (rfl)
@[simp] theorem State.resetReg_hbm (a : Nat) : (s.resetReg a).hbm = s.hbm := (rfl)
@[simp] theorem State.resetReg_fe (a : Nat) : (s.resetReg a).fe = s.fe := (rfl)
@[simp] theorem State.resetReg_chr (a : Nat) : (s.resetReg a).chr = s.chr := (rfl)
@[simp] theorem State.resetReg_fw (a : Nat) : (s.resetReg a).fw = s.fw := (rfl)
@[simp] theorem State.resetReg_sys (a : Nat) : (s.resetReg a).sys = s.sys := (rfl)
@[simp] theorem State.resetReg_lfTlb (a : Nat) : (s.resetReg a).lfTlb = s.lfTlb := (rfl)
@[simp] theorem State.resetReg_net (a : Nat) : (s.resetReg a).net = s.net := (rfl)
@[simp] theorem State.resetReg_hostOut (a : Nat) : (s.resetReg a).hostOut = s.hostOut := (rfl)
@[simp] theorem State.resetReg_cpls (a : Nat) : (s.resetReg a).cpls = s.cpls := (rfl)
@[simp] theorem State.resetReg_msix (a : Nat) : (s.resetReg a).msix = s.msix := (rfl)
@[simp] theorem State.resetReg_diag (a : Nat) : (s.resetReg a).diag = s.diag := (rfl)

@[simp] theorem State.setCore_variant (k : Nat) (x : CoreState) : (s.setCore k x).variant = s.variant := (rfl)
@[simp] theorem State.setCore_pending (k : Nat) (x : CoreState) : (s.setCore k x).pending = s.pending := (rfl)
@[simp] theorem State.setCore_chorus (k : Nat) (x : CoreState) : (s.setCore k x).chorus = s.chorus := (rfl)
@[simp] theorem State.setCore_ns (k : Nat) (x : CoreState) : (s.setCore k x).ns = s.ns := (rfl)
@[simp] theorem State.setCore_free (k : Nat) (x : CoreState) : (s.setCore k x).free = s.free := (rfl)
@[simp] theorem State.setCore_regs (k : Nat) (x : CoreState) : (s.setCore k x).regs = s.regs := (rfl)
@[simp] theorem State.setCore_posns (k : Nat) (x : CoreState) : (s.setCore k x).posns = s.posns := (rfl)
@[simp] theorem State.setCore_hbm (k : Nat) (x : CoreState) : (s.setCore k x).hbm = s.hbm := (rfl)
@[simp] theorem State.setCore_fe (k : Nat) (x : CoreState) : (s.setCore k x).fe = s.fe := (rfl)
@[simp] theorem State.setCore_chr (k : Nat) (x : CoreState) : (s.setCore k x).chr = s.chr := (rfl)
@[simp] theorem State.setCore_fw (k : Nat) (x : CoreState) : (s.setCore k x).fw = s.fw := (rfl)
@[simp] theorem State.setCore_sys (k : Nat) (x : CoreState) : (s.setCore k x).sys = s.sys := (rfl)
@[simp] theorem State.setCore_lfTlb (k : Nat) (x : CoreState) : (s.setCore k x).lfTlb = s.lfTlb := (rfl)
@[simp] theorem State.setCore_net (k : Nat) (x : CoreState) : (s.setCore k x).net = s.net := (rfl)
@[simp] theorem State.setCore_hostOut (k : Nat) (x : CoreState) : (s.setCore k x).hostOut = s.hostOut := (rfl)
@[simp] theorem State.setCore_cpls (k : Nat) (x : CoreState) : (s.setCore k x).cpls = s.cpls := (rfl)
@[simp] theorem State.setCore_msix (k : Nat) (x : CoreState) : (s.setCore k x).msix = s.msix := (rfl)
@[simp] theorem State.setCore_diag (k : Nat) (x : CoreState) : (s.setCore k x).diag = s.diag := (rfl)

@[simp] theorem State.modCore_variant (k : Nat) (g : CoreState → CoreState) : (s.modCore k g).variant = s.variant := (rfl)
@[simp] theorem State.modCore_pending (k : Nat) (g : CoreState → CoreState) : (s.modCore k g).pending = s.pending := (rfl)
@[simp] theorem State.modCore_chorus (k : Nat) (g : CoreState → CoreState) : (s.modCore k g).chorus = s.chorus := (rfl)
@[simp] theorem State.modCore_ns (k : Nat) (g : CoreState → CoreState) : (s.modCore k g).ns = s.ns := (rfl)
@[simp] theorem State.modCore_free (k : Nat) (g : CoreState → CoreState) : (s.modCore k g).free = s.free := (rfl)
@[simp] theorem State.modCore_regs (k : Nat) (g : CoreState → CoreState) : (s.modCore k g).regs = s.regs := (rfl)
@[simp] theorem State.modCore_posns (k : Nat) (g : CoreState → CoreState) : (s.modCore k g).posns = s.posns := (rfl)
@[simp] theorem State.modCore_hbm (k : Nat) (g : CoreState → CoreState) : (s.modCore k g).hbm = s.hbm := (rfl)
@[simp] theorem State.modCore_fe (k : Nat) (g : CoreState → CoreState) : (s.modCore k g).fe = s.fe := (rfl)
@[simp] theorem State.modCore_chr (k : Nat) (g : CoreState → CoreState) : (s.modCore k g).chr = s.chr := (rfl)
@[simp] theorem State.modCore_fw (k : Nat) (g : CoreState → CoreState) : (s.modCore k g).fw = s.fw := (rfl)
@[simp] theorem State.modCore_sys (k : Nat) (g : CoreState → CoreState) : (s.modCore k g).sys = s.sys := (rfl)
@[simp] theorem State.modCore_lfTlb (k : Nat) (g : CoreState → CoreState) : (s.modCore k g).lfTlb = s.lfTlb := (rfl)
@[simp] theorem State.modCore_net (k : Nat) (g : CoreState → CoreState) : (s.modCore k g).net = s.net := (rfl)
@[simp] theorem State.modCore_hostOut (k : Nat) (g : CoreState → CoreState) : (s.modCore k g).hostOut = s.hostOut := (rfl)
@[simp] theorem State.modCore_cpls (k : Nat) (g : CoreState → CoreState) : (s.modCore k g).cpls = s.cpls := (rfl)
@[simp] theorem State.modCore_msix (k : Nat) (g : CoreState → CoreState) : (s.modCore k g).msix = s.msix := (rfl)
@[simp] theorem State.modCore_diag (k : Nat) (g : CoreState → CoreState) : (s.modCore k g).diag = s.diag := (rfl)

@[simp] theorem State.modCtx_variant (k c : Nat) (g : CtxState → CtxState) : (s.modCtx k c g).variant = s.variant := (rfl)
@[simp] theorem State.modCtx_pending (k c : Nat) (g : CtxState → CtxState) : (s.modCtx k c g).pending = s.pending := (rfl)
@[simp] theorem State.modCtx_chorus (k c : Nat) (g : CtxState → CtxState) : (s.modCtx k c g).chorus = s.chorus := (rfl)
@[simp] theorem State.modCtx_ns (k c : Nat) (g : CtxState → CtxState) : (s.modCtx k c g).ns = s.ns := (rfl)
@[simp] theorem State.modCtx_free (k c : Nat) (g : CtxState → CtxState) : (s.modCtx k c g).free = s.free := (rfl)
@[simp] theorem State.modCtx_regs (k c : Nat) (g : CtxState → CtxState) : (s.modCtx k c g).regs = s.regs := (rfl)
@[simp] theorem State.modCtx_posns (k c : Nat) (g : CtxState → CtxState) : (s.modCtx k c g).posns = s.posns := (rfl)
@[simp] theorem State.modCtx_hbm (k c : Nat) (g : CtxState → CtxState) : (s.modCtx k c g).hbm = s.hbm := (rfl)
@[simp] theorem State.modCtx_fe (k c : Nat) (g : CtxState → CtxState) : (s.modCtx k c g).fe = s.fe := (rfl)
@[simp] theorem State.modCtx_chr (k c : Nat) (g : CtxState → CtxState) : (s.modCtx k c g).chr = s.chr := (rfl)
@[simp] theorem State.modCtx_fw (k c : Nat) (g : CtxState → CtxState) : (s.modCtx k c g).fw = s.fw := (rfl)
@[simp] theorem State.modCtx_sys (k c : Nat) (g : CtxState → CtxState) : (s.modCtx k c g).sys = s.sys := (rfl)
@[simp] theorem State.modCtx_lfTlb (k c : Nat) (g : CtxState → CtxState) : (s.modCtx k c g).lfTlb = s.lfTlb := (rfl)
@[simp] theorem State.modCtx_net (k c : Nat) (g : CtxState → CtxState) : (s.modCtx k c g).net = s.net := (rfl)
@[simp] theorem State.modCtx_hostOut (k c : Nat) (g : CtxState → CtxState) : (s.modCtx k c g).hostOut = s.hostOut := (rfl)
@[simp] theorem State.modCtx_cpls (k c : Nat) (g : CtxState → CtxState) : (s.modCtx k c g).cpls = s.cpls := (rfl)
@[simp] theorem State.modCtx_msix (k c : Nat) (g : CtxState → CtxState) : (s.modCtx k c g).msix = s.msix := (rfl)
@[simp] theorem State.modCtx_diag (k c : Nat) (g : CtxState → CtxState) : (s.modCtx k c g).diag = s.diag := (rfl)

@[simp] theorem State.modPos_variant (p : Nat) (g : PosState → PosState) : (s.modPos p g).variant = s.variant := (rfl)
@[simp] theorem State.modPos_pending (p : Nat) (g : PosState → PosState) : (s.modPos p g).pending = s.pending := (rfl)
@[simp] theorem State.modPos_chorus (p : Nat) (g : PosState → PosState) : (s.modPos p g).chorus = s.chorus := (rfl)
@[simp] theorem State.modPos_ns (p : Nat) (g : PosState → PosState) : (s.modPos p g).ns = s.ns := (rfl)
@[simp] theorem State.modPos_free (p : Nat) (g : PosState → PosState) : (s.modPos p g).free = s.free := (rfl)
@[simp] theorem State.modPos_regs (p : Nat) (g : PosState → PosState) : (s.modPos p g).regs = s.regs := (rfl)
@[simp] theorem State.modPos_cores (p : Nat) (g : PosState → PosState) : (s.modPos p g).cores = s.cores := (rfl)
@[simp] theorem State.modPos_hbm (p : Nat) (g : PosState → PosState) : (s.modPos p g).hbm = s.hbm := (rfl)
@[simp] theorem State.modPos_fe (p : Nat) (g : PosState → PosState) : (s.modPos p g).fe = s.fe := (rfl)
@[simp] theorem State.modPos_chr (p : Nat) (g : PosState → PosState) : (s.modPos p g).chr = s.chr := (rfl)
@[simp] theorem State.modPos_fw (p : Nat) (g : PosState → PosState) : (s.modPos p g).fw = s.fw := (rfl)
@[simp] theorem State.modPos_sys (p : Nat) (g : PosState → PosState) : (s.modPos p g).sys = s.sys := (rfl)
@[simp] theorem State.modPos_lfTlb (p : Nat) (g : PosState → PosState) : (s.modPos p g).lfTlb = s.lfTlb := (rfl)
@[simp] theorem State.modPos_net (p : Nat) (g : PosState → PosState) : (s.modPos p g).net = s.net := (rfl)
@[simp] theorem State.modPos_hostOut (p : Nat) (g : PosState → PosState) : (s.modPos p g).hostOut = s.hostOut := (rfl)
@[simp] theorem State.modPos_cpls (p : Nat) (g : PosState → PosState) : (s.modPos p g).cpls = s.cpls := (rfl)
@[simp] theorem State.modPos_msix (p : Nat) (g : PosState → PosState) : (s.modPos p g).msix = s.msix := (rfl)
@[simp] theorem State.modPos_diag (p : Nat) (g : PosState → PosState) : (s.modPos p g).diag = s.diag := (rfl)

@[simp] theorem State.modPart_variant (p : Nat) (g : PartSt → PartSt) : (s.modPart p g).variant = s.variant := (rfl)
@[simp] theorem State.modPart_pending (p : Nat) (g : PartSt → PartSt) : (s.modPart p g).pending = s.pending := (rfl)
@[simp] theorem State.modPart_chorus (p : Nat) (g : PartSt → PartSt) : (s.modPart p g).chorus = s.chorus := (rfl)
@[simp] theorem State.modPart_ns (p : Nat) (g : PartSt → PartSt) : (s.modPart p g).ns = s.ns := (rfl)
@[simp] theorem State.modPart_free (p : Nat) (g : PartSt → PartSt) : (s.modPart p g).free = s.free := (rfl)
@[simp] theorem State.modPart_regs (p : Nat) (g : PartSt → PartSt) : (s.modPart p g).regs = s.regs := (rfl)
@[simp] theorem State.modPart_cores (p : Nat) (g : PartSt → PartSt) : (s.modPart p g).cores = s.cores := (rfl)
@[simp] theorem State.modPart_posns (p : Nat) (g : PartSt → PartSt) : (s.modPart p g).posns = s.posns := (rfl)
@[simp] theorem State.modPart_hbm (p : Nat) (g : PartSt → PartSt) : (s.modPart p g).hbm = s.hbm := (rfl)
@[simp] theorem State.modPart_chr (p : Nat) (g : PartSt → PartSt) : (s.modPart p g).chr = s.chr := (rfl)
@[simp] theorem State.modPart_fw (p : Nat) (g : PartSt → PartSt) : (s.modPart p g).fw = s.fw := (rfl)
@[simp] theorem State.modPart_sys (p : Nat) (g : PartSt → PartSt) : (s.modPart p g).sys = s.sys := (rfl)
@[simp] theorem State.modPart_lfTlb (p : Nat) (g : PartSt → PartSt) : (s.modPart p g).lfTlb = s.lfTlb := (rfl)
@[simp] theorem State.modPart_net (p : Nat) (g : PartSt → PartSt) : (s.modPart p g).net = s.net := (rfl)
@[simp] theorem State.modPart_hostOut (p : Nat) (g : PartSt → PartSt) : (s.modPart p g).hostOut = s.hostOut := (rfl)
@[simp] theorem State.modPart_cpls (p : Nat) (g : PartSt → PartSt) : (s.modPart p g).cpls = s.cpls := (rfl)
@[simp] theorem State.modPart_msix (p : Nat) (g : PartSt → PartSt) : (s.modPart p g).msix = s.msix := (rfl)
@[simp] theorem State.modPart_diag (p : Nat) (g : PartSt → PartSt) : (s.modPart p g).diag = s.diag := (rfl)

@[simp] theorem State.modFn_variant (f : Nat) (g : FnState → FnState) : (s.modFn f g).variant = s.variant := (rfl)
@[simp] theorem State.modFn_pending (f : Nat) (g : FnState → FnState) : (s.modFn f g).pending = s.pending := (rfl)
@[simp] theorem State.modFn_chorus (f : Nat) (g : FnState → FnState) : (s.modFn f g).chorus = s.chorus := (rfl)
@[simp] theorem State.modFn_ns (f : Nat) (g : FnState → FnState) : (s.modFn f g).ns = s.ns := (rfl)
@[simp] theorem State.modFn_free (f : Nat) (g : FnState → FnState) : (s.modFn f g).free = s.free := (rfl)
@[simp] theorem State.modFn_regs (f : Nat) (g : FnState → FnState) : (s.modFn f g).regs = s.regs := (rfl)
@[simp] theorem State.modFn_cores (f : Nat) (g : FnState → FnState) : (s.modFn f g).cores = s.cores := (rfl)
@[simp] theorem State.modFn_posns (f : Nat) (g : FnState → FnState) : (s.modFn f g).posns = s.posns := (rfl)
@[simp] theorem State.modFn_hbm (f : Nat) (g : FnState → FnState) : (s.modFn f g).hbm = s.hbm := (rfl)
@[simp] theorem State.modFn_fe (f : Nat) (g : FnState → FnState) : (s.modFn f g).fe = s.fe := (rfl)
@[simp] theorem State.modFn_chr (f : Nat) (g : FnState → FnState) : (s.modFn f g).chr = s.chr := (rfl)
@[simp] theorem State.modFn_sys (f : Nat) (g : FnState → FnState) : (s.modFn f g).sys = s.sys := (rfl)
@[simp] theorem State.modFn_lfTlb (f : Nat) (g : FnState → FnState) : (s.modFn f g).lfTlb = s.lfTlb := (rfl)
@[simp] theorem State.modFn_net (f : Nat) (g : FnState → FnState) : (s.modFn f g).net = s.net := (rfl)
@[simp] theorem State.modFn_hostOut (f : Nat) (g : FnState → FnState) : (s.modFn f g).hostOut = s.hostOut := (rfl)
@[simp] theorem State.modFn_cpls (f : Nat) (g : FnState → FnState) : (s.modFn f g).cpls = s.cpls := (rfl)
@[simp] theorem State.modFn_msix (f : Nat) (g : FnState → FnState) : (s.modFn f g).msix = s.msix := (rfl)
@[simp] theorem State.modFn_diag (f : Nat) (g : FnState → FnState) : (s.modFn f g).diag = s.diag := (rfl)

@[simp] theorem State.setPc_variant (k c x : Nat) : (s.setPc k c x).variant = s.variant := (rfl)
@[simp] theorem State.setPc_pending (k c x : Nat) : (s.setPc k c x).pending = s.pending := (rfl)
@[simp] theorem State.setPc_chorus (k c x : Nat) : (s.setPc k c x).chorus = s.chorus := (rfl)
@[simp] theorem State.setPc_ns (k c x : Nat) : (s.setPc k c x).ns = s.ns := (rfl)
@[simp] theorem State.setPc_free (k c x : Nat) : (s.setPc k c x).free = s.free := (rfl)
@[simp] theorem State.setPc_cores (k c x : Nat) : (s.setPc k c x).cores = s.cores := (rfl)
@[simp] theorem State.setPc_posns (k c x : Nat) : (s.setPc k c x).posns = s.posns := (rfl)
@[simp] theorem State.setPc_hbm (k c x : Nat) : (s.setPc k c x).hbm = s.hbm := (rfl)
@[simp] theorem State.setPc_fe (k c x : Nat) : (s.setPc k c x).fe = s.fe := (rfl)
@[simp] theorem State.setPc_chr (k c x : Nat) : (s.setPc k c x).chr = s.chr := (rfl)
@[simp] theorem State.setPc_fw (k c x : Nat) : (s.setPc k c x).fw = s.fw := (rfl)
@[simp] theorem State.setPc_sys (k c x : Nat) : (s.setPc k c x).sys = s.sys := (rfl)
@[simp] theorem State.setPc_lfTlb (k c x : Nat) : (s.setPc k c x).lfTlb = s.lfTlb := (rfl)
@[simp] theorem State.setPc_net (k c x : Nat) : (s.setPc k c x).net = s.net := (rfl)
@[simp] theorem State.setPc_hostOut (k c x : Nat) : (s.setPc k c x).hostOut = s.hostOut := (rfl)
@[simp] theorem State.setPc_cpls (k c x : Nat) : (s.setPc k c x).cpls = s.cpls := (rfl)
@[simp] theorem State.setPc_msix (k c x : Nat) : (s.setPc k c x).msix = s.msix := (rfl)
@[simp] theorem State.setPc_diag (k c x : Nat) : (s.setPc k c x).diag = s.diag := (rfl)

@[simp] theorem State.setSeqState_variant (k c x : Nat) : (s.setSeqState k c x).variant = s.variant := (rfl)
@[simp] theorem State.setSeqState_pending (k c x : Nat) : (s.setSeqState k c x).pending = s.pending := (rfl)
@[simp] theorem State.setSeqState_chorus (k c x : Nat) : (s.setSeqState k c x).chorus = s.chorus := (rfl)
@[simp] theorem State.setSeqState_ns (k c x : Nat) : (s.setSeqState k c x).ns = s.ns := (rfl)
@[simp] theorem State.setSeqState_free (k c x : Nat) : (s.setSeqState k c x).free = s.free := (rfl)
@[simp] theorem State.setSeqState_cores (k c x : Nat) : (s.setSeqState k c x).cores = s.cores := (rfl)
@[simp] theorem State.setSeqState_posns (k c x : Nat) : (s.setSeqState k c x).posns = s.posns := (rfl)
@[simp] theorem State.setSeqState_hbm (k c x : Nat) : (s.setSeqState k c x).hbm = s.hbm := (rfl)
@[simp] theorem State.setSeqState_fe (k c x : Nat) : (s.setSeqState k c x).fe = s.fe := (rfl)
@[simp] theorem State.setSeqState_chr (k c x : Nat) : (s.setSeqState k c x).chr = s.chr := (rfl)
@[simp] theorem State.setSeqState_fw (k c x : Nat) : (s.setSeqState k c x).fw = s.fw := (rfl)
@[simp] theorem State.setSeqState_sys (k c x : Nat) : (s.setSeqState k c x).sys = s.sys := (rfl)
@[simp] theorem State.setSeqState_lfTlb (k c x : Nat) : (s.setSeqState k c x).lfTlb = s.lfTlb := (rfl)
@[simp] theorem State.setSeqState_net (k c x : Nat) : (s.setSeqState k c x).net = s.net := (rfl)
@[simp] theorem State.setSeqState_hostOut (k c x : Nat) : (s.setSeqState k c x).hostOut = s.hostOut := (rfl)
@[simp] theorem State.setSeqState_cpls (k c x : Nat) : (s.setSeqState k c x).cpls = s.cpls := (rfl)
@[simp] theorem State.setSeqState_msix (k c x : Nat) : (s.setSeqState k c x).msix = s.msix := (rfl)
@[simp] theorem State.setSeqState_diag (k c x : Nat) : (s.setSeqState k c x).diag = s.diag := (rfl)

@[simp] theorem State.takeFree_variant : (s.takeFree).variant = s.variant := (rfl)
@[simp] theorem State.takeFree_pending : (s.takeFree).pending = s.pending := (rfl)
@[simp] theorem State.takeFree_chorus : (s.takeFree).chorus = s.chorus := (rfl)
@[simp] theorem State.takeFree_ns : (s.takeFree).ns = s.ns := (rfl)
@[simp] theorem State.takeFree_regs : (s.takeFree).regs = s.regs := (rfl)
@[simp] theorem State.takeFree_cores : (s.takeFree).cores = s.cores := (rfl)
@[simp] theorem State.takeFree_posns : (s.takeFree).posns = s.posns := (rfl)
@[simp] theorem State.takeFree_hbm : (s.takeFree).hbm = s.hbm := (rfl)
@[simp] theorem State.takeFree_fe : (s.takeFree).fe = s.fe := (rfl)
@[simp] theorem State.takeFree_chr : (s.takeFree).chr = s.chr := (rfl)
@[simp] theorem State.takeFree_fw : (s.takeFree).fw = s.fw := (rfl)
@[simp] theorem State.takeFree_sys : (s.takeFree).sys = s.sys := (rfl)
@[simp] theorem State.takeFree_lfTlb : (s.takeFree).lfTlb = s.lfTlb := (rfl)
@[simp] theorem State.takeFree_net : (s.takeFree).net = s.net := (rfl)
@[simp] theorem State.takeFree_hostOut : (s.takeFree).hostOut = s.hostOut := (rfl)
@[simp] theorem State.takeFree_cpls : (s.takeFree).cpls = s.cpls := (rfl)
@[simp] theorem State.takeFree_msix : (s.takeFree).msix = s.msix := (rfl)
@[simp] theorem State.takeFree_diag : (s.takeFree).diag = s.diag := (rfl)

@[simp] theorem State.setHbm_variant (x : HbmState) : (s.setHbm x).variant = s.variant := (rfl)
@[simp] theorem State.setHbm_pending (x : HbmState) : (s.setHbm x).pending = s.pending := (rfl)
@[simp] theorem State.setHbm_chorus (x : HbmState) : (s.setHbm x).chorus = s.chorus := (rfl)
@[simp] theorem State.setHbm_ns (x : HbmState) : (s.setHbm x).ns = s.ns := (rfl)
@[simp] theorem State.setHbm_free (x : HbmState) : (s.setHbm x).free = s.free := (rfl)
@[simp] theorem State.setHbm_regs (x : HbmState) : (s.setHbm x).regs = s.regs := (rfl)
@[simp] theorem State.setHbm_cores (x : HbmState) : (s.setHbm x).cores = s.cores := (rfl)
@[simp] theorem State.setHbm_posns (x : HbmState) : (s.setHbm x).posns = s.posns := (rfl)
@[simp] theorem State.setHbm_fe (x : HbmState) : (s.setHbm x).fe = s.fe := (rfl)
@[simp] theorem State.setHbm_chr (x : HbmState) : (s.setHbm x).chr = s.chr := (rfl)
@[simp] theorem State.setHbm_fw (x : HbmState) : (s.setHbm x).fw = s.fw := (rfl)
@[simp] theorem State.setHbm_sys (x : HbmState) : (s.setHbm x).sys = s.sys := (rfl)
@[simp] theorem State.setHbm_lfTlb (x : HbmState) : (s.setHbm x).lfTlb = s.lfTlb := (rfl)
@[simp] theorem State.setHbm_net (x : HbmState) : (s.setHbm x).net = s.net := (rfl)
@[simp] theorem State.setHbm_hostOut (x : HbmState) : (s.setHbm x).hostOut = s.hostOut := (rfl)
@[simp] theorem State.setHbm_cpls (x : HbmState) : (s.setHbm x).cpls = s.cpls := (rfl)
@[simp] theorem State.setHbm_msix (x : HbmState) : (s.setHbm x).msix = s.msix := (rfl)
@[simp] theorem State.setHbm_diag (x : HbmState) : (s.setHbm x).diag = s.diag := (rfl)

@[simp] theorem State.setFe_variant (x : FeState) : (s.setFe x).variant = s.variant := (rfl)
@[simp] theorem State.setFe_pending (x : FeState) : (s.setFe x).pending = s.pending := (rfl)
@[simp] theorem State.setFe_chorus (x : FeState) : (s.setFe x).chorus = s.chorus := (rfl)
@[simp] theorem State.setFe_ns (x : FeState) : (s.setFe x).ns = s.ns := (rfl)
@[simp] theorem State.setFe_free (x : FeState) : (s.setFe x).free = s.free := (rfl)
@[simp] theorem State.setFe_regs (x : FeState) : (s.setFe x).regs = s.regs := (rfl)
@[simp] theorem State.setFe_cores (x : FeState) : (s.setFe x).cores = s.cores := (rfl)
@[simp] theorem State.setFe_posns (x : FeState) : (s.setFe x).posns = s.posns := (rfl)
@[simp] theorem State.setFe_hbm (x : FeState) : (s.setFe x).hbm = s.hbm := (rfl)
@[simp] theorem State.setFe_chr (x : FeState) : (s.setFe x).chr = s.chr := (rfl)
@[simp] theorem State.setFe_fw (x : FeState) : (s.setFe x).fw = s.fw := (rfl)
@[simp] theorem State.setFe_sys (x : FeState) : (s.setFe x).sys = s.sys := (rfl)
@[simp] theorem State.setFe_lfTlb (x : FeState) : (s.setFe x).lfTlb = s.lfTlb := (rfl)
@[simp] theorem State.setFe_net (x : FeState) : (s.setFe x).net = s.net := (rfl)
@[simp] theorem State.setFe_hostOut (x : FeState) : (s.setFe x).hostOut = s.hostOut := (rfl)
@[simp] theorem State.setFe_cpls (x : FeState) : (s.setFe x).cpls = s.cpls := (rfl)
@[simp] theorem State.setFe_msix (x : FeState) : (s.setFe x).msix = s.msix := (rfl)
@[simp] theorem State.setFe_diag (x : FeState) : (s.setFe x).diag = s.diag := (rfl)

@[simp] theorem State.setChr_variant (x : ChrState) : (s.setChr x).variant = s.variant := (rfl)
@[simp] theorem State.setChr_pending (x : ChrState) : (s.setChr x).pending = s.pending := (rfl)
@[simp] theorem State.setChr_chorus (x : ChrState) : (s.setChr x).chorus = s.chorus := (rfl)
@[simp] theorem State.setChr_ns (x : ChrState) : (s.setChr x).ns = s.ns := (rfl)
@[simp] theorem State.setChr_free (x : ChrState) : (s.setChr x).free = s.free := (rfl)
@[simp] theorem State.setChr_regs (x : ChrState) : (s.setChr x).regs = s.regs := (rfl)
@[simp] theorem State.setChr_cores (x : ChrState) : (s.setChr x).cores = s.cores := (rfl)
@[simp] theorem State.setChr_posns (x : ChrState) : (s.setChr x).posns = s.posns := (rfl)
@[simp] theorem State.setChr_hbm (x : ChrState) : (s.setChr x).hbm = s.hbm := (rfl)
@[simp] theorem State.setChr_fe (x : ChrState) : (s.setChr x).fe = s.fe := (rfl)
@[simp] theorem State.setChr_fw (x : ChrState) : (s.setChr x).fw = s.fw := (rfl)
@[simp] theorem State.setChr_sys (x : ChrState) : (s.setChr x).sys = s.sys := (rfl)
@[simp] theorem State.setChr_lfTlb (x : ChrState) : (s.setChr x).lfTlb = s.lfTlb := (rfl)
@[simp] theorem State.setChr_net (x : ChrState) : (s.setChr x).net = s.net := (rfl)
@[simp] theorem State.setChr_hostOut (x : ChrState) : (s.setChr x).hostOut = s.hostOut := (rfl)
@[simp] theorem State.setChr_cpls (x : ChrState) : (s.setChr x).cpls = s.cpls := (rfl)
@[simp] theorem State.setChr_msix (x : ChrState) : (s.setChr x).msix = s.msix := (rfl)
@[simp] theorem State.setChr_diag (x : ChrState) : (s.setChr x).diag = s.diag := (rfl)

@[simp] theorem State.setFw_variant (x : FwState) : (s.setFw x).variant = s.variant := (rfl)
@[simp] theorem State.setFw_pending (x : FwState) : (s.setFw x).pending = s.pending := (rfl)
@[simp] theorem State.setFw_chorus (x : FwState) : (s.setFw x).chorus = s.chorus := (rfl)
@[simp] theorem State.setFw_ns (x : FwState) : (s.setFw x).ns = s.ns := (rfl)
@[simp] theorem State.setFw_free (x : FwState) : (s.setFw x).free = s.free := (rfl)
@[simp] theorem State.setFw_regs (x : FwState) : (s.setFw x).regs = s.regs := (rfl)
@[simp] theorem State.setFw_cores (x : FwState) : (s.setFw x).cores = s.cores := (rfl)
@[simp] theorem State.setFw_posns (x : FwState) : (s.setFw x).posns = s.posns := (rfl)
@[simp] theorem State.setFw_hbm (x : FwState) : (s.setFw x).hbm = s.hbm := (rfl)
@[simp] theorem State.setFw_fe (x : FwState) : (s.setFw x).fe = s.fe := (rfl)
@[simp] theorem State.setFw_chr (x : FwState) : (s.setFw x).chr = s.chr := (rfl)
@[simp] theorem State.setFw_sys (x : FwState) : (s.setFw x).sys = s.sys := (rfl)
@[simp] theorem State.setFw_lfTlb (x : FwState) : (s.setFw x).lfTlb = s.lfTlb := (rfl)
@[simp] theorem State.setFw_net (x : FwState) : (s.setFw x).net = s.net := (rfl)
@[simp] theorem State.setFw_hostOut (x : FwState) : (s.setFw x).hostOut = s.hostOut := (rfl)
@[simp] theorem State.setFw_cpls (x : FwState) : (s.setFw x).cpls = s.cpls := (rfl)
@[simp] theorem State.setFw_msix (x : FwState) : (s.setFw x).msix = s.msix := (rfl)
@[simp] theorem State.setFw_diag (x : FwState) : (s.setFw x).diag = s.diag := (rfl)

@[simp] theorem State.setSys_variant (x : SysState) : (s.setSys x).variant = s.variant := (rfl)
@[simp] theorem State.setSys_pending (x : SysState) : (s.setSys x).pending = s.pending := (rfl)
@[simp] theorem State.setSys_chorus (x : SysState) : (s.setSys x).chorus = s.chorus := (rfl)
@[simp] theorem State.setSys_ns (x : SysState) : (s.setSys x).ns = s.ns := (rfl)
@[simp] theorem State.setSys_free (x : SysState) : (s.setSys x).free = s.free := (rfl)
@[simp] theorem State.setSys_regs (x : SysState) : (s.setSys x).regs = s.regs := (rfl)
@[simp] theorem State.setSys_cores (x : SysState) : (s.setSys x).cores = s.cores := (rfl)
@[simp] theorem State.setSys_posns (x : SysState) : (s.setSys x).posns = s.posns := (rfl)
@[simp] theorem State.setSys_hbm (x : SysState) : (s.setSys x).hbm = s.hbm := (rfl)
@[simp] theorem State.setSys_fe (x : SysState) : (s.setSys x).fe = s.fe := (rfl)
@[simp] theorem State.setSys_chr (x : SysState) : (s.setSys x).chr = s.chr := (rfl)
@[simp] theorem State.setSys_fw (x : SysState) : (s.setSys x).fw = s.fw := (rfl)
@[simp] theorem State.setSys_lfTlb (x : SysState) : (s.setSys x).lfTlb = s.lfTlb := (rfl)
@[simp] theorem State.setSys_net (x : SysState) : (s.setSys x).net = s.net := (rfl)
@[simp] theorem State.setSys_hostOut (x : SysState) : (s.setSys x).hostOut = s.hostOut := (rfl)
@[simp] theorem State.setSys_cpls (x : SysState) : (s.setSys x).cpls = s.cpls := (rfl)
@[simp] theorem State.setSys_msix (x : SysState) : (s.setSys x).msix = s.msix := (rfl)
@[simp] theorem State.setSys_diag (x : SysState) : (s.setSys x).diag = s.diag := (rfl)

@[simp] theorem State.setNet_variant (x : List Packet) : (s.setNet x).variant = s.variant := (rfl)
@[simp] theorem State.setNet_pending (x : List Packet) : (s.setNet x).pending = s.pending := (rfl)
@[simp] theorem State.setNet_chorus (x : List Packet) : (s.setNet x).chorus = s.chorus := (rfl)
@[simp] theorem State.setNet_ns (x : List Packet) : (s.setNet x).ns = s.ns := (rfl)
@[simp] theorem State.setNet_free (x : List Packet) : (s.setNet x).free = s.free := (rfl)
@[simp] theorem State.setNet_regs (x : List Packet) : (s.setNet x).regs = s.regs := (rfl)
@[simp] theorem State.setNet_cores (x : List Packet) : (s.setNet x).cores = s.cores := (rfl)
@[simp] theorem State.setNet_posns (x : List Packet) : (s.setNet x).posns = s.posns := (rfl)
@[simp] theorem State.setNet_hbm (x : List Packet) : (s.setNet x).hbm = s.hbm := (rfl)
@[simp] theorem State.setNet_fe (x : List Packet) : (s.setNet x).fe = s.fe := (rfl)
@[simp] theorem State.setNet_chr (x : List Packet) : (s.setNet x).chr = s.chr := (rfl)
@[simp] theorem State.setNet_fw (x : List Packet) : (s.setNet x).fw = s.fw := (rfl)
@[simp] theorem State.setNet_sys (x : List Packet) : (s.setNet x).sys = s.sys := (rfl)
@[simp] theorem State.setNet_lfTlb (x : List Packet) : (s.setNet x).lfTlb = s.lfTlb := (rfl)
@[simp] theorem State.setNet_hostOut (x : List Packet) : (s.setNet x).hostOut = s.hostOut := (rfl)
@[simp] theorem State.setNet_cpls (x : List Packet) : (s.setNet x).cpls = s.cpls := (rfl)
@[simp] theorem State.setNet_msix (x : List Packet) : (s.setNet x).msix = s.msix := (rfl)
@[simp] theorem State.setNet_diag (x : List Packet) : (s.setNet x).diag = s.diag := (rfl)

@[simp] theorem State.setChorus_variant (x : Chorus) : (s.setChorus x).variant = s.variant := (rfl)
@[simp] theorem State.setChorus_pending (x : Chorus) : (s.setChorus x).pending = s.pending := (rfl)
@[simp] theorem State.setChorus_ns (x : Chorus) : (s.setChorus x).ns = s.ns := (rfl)
@[simp] theorem State.setChorus_free (x : Chorus) : (s.setChorus x).free = s.free := (rfl)
@[simp] theorem State.setChorus_regs (x : Chorus) : (s.setChorus x).regs = s.regs := (rfl)
@[simp] theorem State.setChorus_cores (x : Chorus) : (s.setChorus x).cores = s.cores := (rfl)
@[simp] theorem State.setChorus_posns (x : Chorus) : (s.setChorus x).posns = s.posns := (rfl)
@[simp] theorem State.setChorus_hbm (x : Chorus) : (s.setChorus x).hbm = s.hbm := (rfl)
@[simp] theorem State.setChorus_fe (x : Chorus) : (s.setChorus x).fe = s.fe := (rfl)
@[simp] theorem State.setChorus_chr (x : Chorus) : (s.setChorus x).chr = s.chr := (rfl)
@[simp] theorem State.setChorus_fw (x : Chorus) : (s.setChorus x).fw = s.fw := (rfl)
@[simp] theorem State.setChorus_sys (x : Chorus) : (s.setChorus x).sys = s.sys := (rfl)
@[simp] theorem State.setChorus_lfTlb (x : Chorus) : (s.setChorus x).lfTlb = s.lfTlb := (rfl)
@[simp] theorem State.setChorus_net (x : Chorus) : (s.setChorus x).net = s.net := (rfl)
@[simp] theorem State.setChorus_hostOut (x : Chorus) : (s.setChorus x).hostOut = s.hostOut := (rfl)
@[simp] theorem State.setChorus_cpls (x : Chorus) : (s.setChorus x).cpls = s.cpls := (rfl)
@[simp] theorem State.setChorus_msix (x : Chorus) : (s.setChorus x).msix = s.msix := (rfl)
@[simp] theorem State.setChorus_diag (x : Chorus) : (s.setChorus x).diag = s.diag := (rfl)

@[simp] theorem State.setLfTlb_variant (x : List TlbEntry) : (s.setLfTlb x).variant = s.variant := (rfl)
@[simp] theorem State.setLfTlb_pending (x : List TlbEntry) : (s.setLfTlb x).pending = s.pending := (rfl)
@[simp] theorem State.setLfTlb_chorus (x : List TlbEntry) : (s.setLfTlb x).chorus = s.chorus := (rfl)
@[simp] theorem State.setLfTlb_ns (x : List TlbEntry) : (s.setLfTlb x).ns = s.ns := (rfl)
@[simp] theorem State.setLfTlb_free (x : List TlbEntry) : (s.setLfTlb x).free = s.free := (rfl)
@[simp] theorem State.setLfTlb_regs (x : List TlbEntry) : (s.setLfTlb x).regs = s.regs := (rfl)
@[simp] theorem State.setLfTlb_cores (x : List TlbEntry) : (s.setLfTlb x).cores = s.cores := (rfl)
@[simp] theorem State.setLfTlb_posns (x : List TlbEntry) : (s.setLfTlb x).posns = s.posns := (rfl)
@[simp] theorem State.setLfTlb_hbm (x : List TlbEntry) : (s.setLfTlb x).hbm = s.hbm := (rfl)
@[simp] theorem State.setLfTlb_fe (x : List TlbEntry) : (s.setLfTlb x).fe = s.fe := (rfl)
@[simp] theorem State.setLfTlb_chr (x : List TlbEntry) : (s.setLfTlb x).chr = s.chr := (rfl)
@[simp] theorem State.setLfTlb_fw (x : List TlbEntry) : (s.setLfTlb x).fw = s.fw := (rfl)
@[simp] theorem State.setLfTlb_sys (x : List TlbEntry) : (s.setLfTlb x).sys = s.sys := (rfl)
@[simp] theorem State.setLfTlb_net (x : List TlbEntry) : (s.setLfTlb x).net = s.net := (rfl)
@[simp] theorem State.setLfTlb_hostOut (x : List TlbEntry) : (s.setLfTlb x).hostOut = s.hostOut := (rfl)
@[simp] theorem State.setLfTlb_cpls (x : List TlbEntry) : (s.setLfTlb x).cpls = s.cpls := (rfl)
@[simp] theorem State.setLfTlb_msix (x : List TlbEntry) : (s.setLfTlb x).msix = s.msix := (rfl)
@[simp] theorem State.setLfTlb_diag (x : List TlbEntry) : (s.setLfTlb x).diag = s.diag := (rfl)

@[simp] theorem State.setHostOut_variant (x : List (Nat × Nat × List Byte)) : (s.setHostOut x).variant = s.variant := (rfl)
@[simp] theorem State.setHostOut_pending (x : List (Nat × Nat × List Byte)) : (s.setHostOut x).pending = s.pending := (rfl)
@[simp] theorem State.setHostOut_chorus (x : List (Nat × Nat × List Byte)) : (s.setHostOut x).chorus = s.chorus := (rfl)
@[simp] theorem State.setHostOut_ns (x : List (Nat × Nat × List Byte)) : (s.setHostOut x).ns = s.ns := (rfl)
@[simp] theorem State.setHostOut_free (x : List (Nat × Nat × List Byte)) : (s.setHostOut x).free = s.free := (rfl)
@[simp] theorem State.setHostOut_regs (x : List (Nat × Nat × List Byte)) : (s.setHostOut x).regs = s.regs := (rfl)
@[simp] theorem State.setHostOut_cores (x : List (Nat × Nat × List Byte)) : (s.setHostOut x).cores = s.cores := (rfl)
@[simp] theorem State.setHostOut_posns (x : List (Nat × Nat × List Byte)) : (s.setHostOut x).posns = s.posns := (rfl)
@[simp] theorem State.setHostOut_hbm (x : List (Nat × Nat × List Byte)) : (s.setHostOut x).hbm = s.hbm := (rfl)
@[simp] theorem State.setHostOut_fe (x : List (Nat × Nat × List Byte)) : (s.setHostOut x).fe = s.fe := (rfl)
@[simp] theorem State.setHostOut_chr (x : List (Nat × Nat × List Byte)) : (s.setHostOut x).chr = s.chr := (rfl)
@[simp] theorem State.setHostOut_fw (x : List (Nat × Nat × List Byte)) : (s.setHostOut x).fw = s.fw := (rfl)
@[simp] theorem State.setHostOut_sys (x : List (Nat × Nat × List Byte)) : (s.setHostOut x).sys = s.sys := (rfl)
@[simp] theorem State.setHostOut_lfTlb (x : List (Nat × Nat × List Byte)) : (s.setHostOut x).lfTlb = s.lfTlb := (rfl)
@[simp] theorem State.setHostOut_net (x : List (Nat × Nat × List Byte)) : (s.setHostOut x).net = s.net := (rfl)
@[simp] theorem State.setHostOut_cpls (x : List (Nat × Nat × List Byte)) : (s.setHostOut x).cpls = s.cpls := (rfl)
@[simp] theorem State.setHostOut_msix (x : List (Nat × Nat × List Byte)) : (s.setHostOut x).msix = s.msix := (rfl)
@[simp] theorem State.setHostOut_diag (x : List (Nat × Nat × List Byte)) : (s.setHostOut x).diag = s.diag := (rfl)

@[simp] theorem State.setCpls_variant (x : List (Nat × HostCpl)) : (s.setCpls x).variant = s.variant := (rfl)
@[simp] theorem State.setCpls_pending (x : List (Nat × HostCpl)) : (s.setCpls x).pending = s.pending := (rfl)
@[simp] theorem State.setCpls_chorus (x : List (Nat × HostCpl)) : (s.setCpls x).chorus = s.chorus := (rfl)
@[simp] theorem State.setCpls_ns (x : List (Nat × HostCpl)) : (s.setCpls x).ns = s.ns := (rfl)
@[simp] theorem State.setCpls_free (x : List (Nat × HostCpl)) : (s.setCpls x).free = s.free := (rfl)
@[simp] theorem State.setCpls_regs (x : List (Nat × HostCpl)) : (s.setCpls x).regs = s.regs := (rfl)
@[simp] theorem State.setCpls_cores (x : List (Nat × HostCpl)) : (s.setCpls x).cores = s.cores := (rfl)
@[simp] theorem State.setCpls_posns (x : List (Nat × HostCpl)) : (s.setCpls x).posns = s.posns := (rfl)
@[simp] theorem State.setCpls_hbm (x : List (Nat × HostCpl)) : (s.setCpls x).hbm = s.hbm := (rfl)
@[simp] theorem State.setCpls_fe (x : List (Nat × HostCpl)) : (s.setCpls x).fe = s.fe := (rfl)
@[simp] theorem State.setCpls_chr (x : List (Nat × HostCpl)) : (s.setCpls x).chr = s.chr := (rfl)
@[simp] theorem State.setCpls_fw (x : List (Nat × HostCpl)) : (s.setCpls x).fw = s.fw := (rfl)
@[simp] theorem State.setCpls_sys (x : List (Nat × HostCpl)) : (s.setCpls x).sys = s.sys := (rfl)
@[simp] theorem State.setCpls_lfTlb (x : List (Nat × HostCpl)) : (s.setCpls x).lfTlb = s.lfTlb := (rfl)
@[simp] theorem State.setCpls_net (x : List (Nat × HostCpl)) : (s.setCpls x).net = s.net := (rfl)
@[simp] theorem State.setCpls_hostOut (x : List (Nat × HostCpl)) : (s.setCpls x).hostOut = s.hostOut := (rfl)
@[simp] theorem State.setCpls_msix (x : List (Nat × HostCpl)) : (s.setCpls x).msix = s.msix := (rfl)
@[simp] theorem State.setCpls_diag (x : List (Nat × HostCpl)) : (s.setCpls x).diag = s.diag := (rfl)

@[simp] theorem State.setMsix_variant (x : List (Nat × Nat)) : (s.setMsix x).variant = s.variant := (rfl)
@[simp] theorem State.setMsix_pending (x : List (Nat × Nat)) : (s.setMsix x).pending = s.pending := (rfl)
@[simp] theorem State.setMsix_chorus (x : List (Nat × Nat)) : (s.setMsix x).chorus = s.chorus := (rfl)
@[simp] theorem State.setMsix_ns (x : List (Nat × Nat)) : (s.setMsix x).ns = s.ns := (rfl)
@[simp] theorem State.setMsix_free (x : List (Nat × Nat)) : (s.setMsix x).free = s.free := (rfl)
@[simp] theorem State.setMsix_regs (x : List (Nat × Nat)) : (s.setMsix x).regs = s.regs := (rfl)
@[simp] theorem State.setMsix_cores (x : List (Nat × Nat)) : (s.setMsix x).cores = s.cores := (rfl)
@[simp] theorem State.setMsix_posns (x : List (Nat × Nat)) : (s.setMsix x).posns = s.posns := (rfl)
@[simp] theorem State.setMsix_hbm (x : List (Nat × Nat)) : (s.setMsix x).hbm = s.hbm := (rfl)
@[simp] theorem State.setMsix_fe (x : List (Nat × Nat)) : (s.setMsix x).fe = s.fe := (rfl)
@[simp] theorem State.setMsix_chr (x : List (Nat × Nat)) : (s.setMsix x).chr = s.chr := (rfl)
@[simp] theorem State.setMsix_fw (x : List (Nat × Nat)) : (s.setMsix x).fw = s.fw := (rfl)
@[simp] theorem State.setMsix_sys (x : List (Nat × Nat)) : (s.setMsix x).sys = s.sys := (rfl)
@[simp] theorem State.setMsix_lfTlb (x : List (Nat × Nat)) : (s.setMsix x).lfTlb = s.lfTlb := (rfl)
@[simp] theorem State.setMsix_net (x : List (Nat × Nat)) : (s.setMsix x).net = s.net := (rfl)
@[simp] theorem State.setMsix_hostOut (x : List (Nat × Nat)) : (s.setMsix x).hostOut = s.hostOut := (rfl)
@[simp] theorem State.setMsix_cpls (x : List (Nat × Nat)) : (s.setMsix x).cpls = s.cpls := (rfl)
@[simp] theorem State.setMsix_diag (x : List (Nat × Nat)) : (s.setMsix x).diag = s.diag := (rfl)

end Sys2Proof.Machine
end

