-- ==== Sys2Proof/Laws/Ops.lean ====
section
/-!
SUPPORT. Laws of the named operations: a read after a write of a register, a field, a flag, a core, a context, a scalar
register and a function, and what each operation leaves alone. Later proofs cite these and unfold none of them.
-/

namespace Sys2Proof.Machine

variable (s : State)

/-! ## Registers -/

@[simp] theorem State.reg_setReg_self (a : Nat) (v : Word64) : (s.setReg a v).reg a = v := Sparse.get_set_self _ _ _ _

theorem State.reg_setReg (a b : Nat) (v : Word64) : (s.setReg a v).reg b = if b = a then v else s.reg b :=
  Sparse.get_set _ _ _ _ _

theorem State.reg_setReg_ne {a b : Nat} (v : Word64) (h : b ≠ a) : (s.setReg a v).reg b = s.reg b := by
  simp [State.reg_setReg, h]

theorem State.reg_setFld_ne {a b : Nat} (hi lo x : Nat) (h : b ≠ a) : (s.setFld a hi lo x).reg b = s.reg b :=
  State.reg_setReg_ne s _ h

@[simp] theorem State.reg_setFld_self (a hi lo x : Nat) : (s.setFld a hi lo x).reg a = setBits (s.reg a) hi lo x :=
  State.reg_setReg_self s _ _

theorem State.fld_setFld_ne {a b : Nat} (hi lo x hi' lo' : Nat) (h : b ≠ a) :
    (s.setFld a hi lo x).fld b hi' lo' = s.fld b hi' lo' := by unfold State.fld; rw [State.reg_setFld_ne _ _ _ _ h]

theorem State.fld_setFld_self (a hi lo x : Nat) (h : hi < 64) :
    (s.setFld a hi lo x).fld a hi lo = x % 2 ^ (hi + 1 - lo) := by
  unfold State.fld; rw [State.reg_setFld_self, bits_setBits_self _ _ _ _ h]

theorem State.fld_setFld_disj (a hi lo x hi' lo' : Nat) (h : hi' < lo ∨ hi < lo') :
    (s.setFld a hi lo x).fld a hi' lo' = s.fld a hi' lo' := by
  unfold State.fld; rw [State.reg_setFld_self, bits_setBits_disj _ _ _ _ _ _ h]

theorem State.fld_lt (a hi lo : Nat) : s.fld a hi lo < 2 ^ (hi + 1 - lo) := bits_lt _ _ _

theorem State.bitOf_setFld_ne {a b : Nat} (hi lo x i : Nat) (h : b ≠ a) :
    (s.setFld a hi lo x).bitOf b i = s.bitOf b i := by unfold State.bitOf; rw [State.reg_setFld_ne _ _ _ _ h]

theorem State.bitOf_setFld_disj (a hi lo x i : Nat) (h : i < lo ∨ hi < i) :
    (s.setFld a hi lo x).bitOf a i = s.bitOf a i := by
  unfold State.bitOf; rw [State.reg_setFld_self, bit_setBits_disj _ _ _ _ _ h]

theorem State.bitOf_setBitOf_self (a i : Nat) (h : i < 64) : (s.setBitOf a i).bitOf a i = true := by
  unfold State.bitOf State.setBitOf; rw [State.reg_setFld_self, bit_setBits_self _ _ _ h]; rfl

/-! ## Registers under updates of other parts -/

@[simp] theorem State.reg_setCore (k : Nat) (x : CoreState) (r : Nat) : (s.setCore k x).reg r = s.reg r := (rfl)
@[simp] theorem State.fld_setCore (k : Nat) (x : CoreState) (r hi lo : Nat) : (s.setCore k x).fld r hi lo = s.fld r hi lo := (rfl)
@[simp] theorem State.bitOf_setCore (k : Nat) (x : CoreState) (r i : Nat) : (s.setCore k x).bitOf r i = s.bitOf r i := (rfl)
@[simp] theorem State.reg_modCore (k : Nat) (g : CoreState → CoreState) (r : Nat) : (s.modCore k g).reg r = s.reg r := (rfl)
@[simp] theorem State.fld_modCore (k : Nat) (g : CoreState → CoreState) (r hi lo : Nat) : (s.modCore k g).fld r hi lo = s.fld r hi lo := (rfl)
@[simp] theorem State.bitOf_modCore (k : Nat) (g : CoreState → CoreState) (r i : Nat) : (s.modCore k g).bitOf r i = s.bitOf r i := (rfl)
@[simp] theorem State.reg_modCtx (k c : Nat) (g : CtxState → CtxState) (r : Nat) : (s.modCtx k c g).reg r = s.reg r := (rfl)
@[simp] theorem State.fld_modCtx (k c : Nat) (g : CtxState → CtxState) (r hi lo : Nat) : (s.modCtx k c g).fld r hi lo = s.fld r hi lo := (rfl)
@[simp] theorem State.bitOf_modCtx (k c : Nat) (g : CtxState → CtxState) (r i : Nat) : (s.modCtx k c g).bitOf r i = s.bitOf r i := (rfl)
@[simp] theorem State.reg_modPos (p : Nat) (g : PosState → PosState) (r : Nat) : (s.modPos p g).reg r = s.reg r := (rfl)
@[simp] theorem State.fld_modPos (p : Nat) (g : PosState → PosState) (r hi lo : Nat) : (s.modPos p g).fld r hi lo = s.fld r hi lo := (rfl)
@[simp] theorem State.bitOf_modPos (p : Nat) (g : PosState → PosState) (r i : Nat) : (s.modPos p g).bitOf r i = s.bitOf r i := (rfl)
@[simp] theorem State.reg_modPart (p : Nat) (g : PartSt → PartSt) (r : Nat) : (s.modPart p g).reg r = s.reg r := (rfl)
@[simp] theorem State.fld_modPart (p : Nat) (g : PartSt → PartSt) (r hi lo : Nat) : (s.modPart p g).fld r hi lo = s.fld r hi lo := (rfl)
@[simp] theorem State.bitOf_modPart (p : Nat) (g : PartSt → PartSt) (r i : Nat) : (s.modPart p g).bitOf r i = s.bitOf r i := (rfl)
@[simp] theorem State.reg_modFn (f : Nat) (g : FnState → FnState) (r : Nat) : (s.modFn f g).reg r = s.reg r := (rfl)
@[simp] theorem State.fld_modFn (f : Nat) (g : FnState → FnState) (r hi lo : Nat) : (s.modFn f g).fld r hi lo = s.fld r hi lo := (rfl)
@[simp] theorem State.bitOf_modFn (f : Nat) (g : FnState → FnState) (r i : Nat) : (s.modFn f g).bitOf r i = s.bitOf r i := (rfl)
@[simp] theorem State.reg_takeFree (r : Nat) : (s.takeFree).reg r = s.reg r := (rfl)
@[simp] theorem State.fld_takeFree (r hi lo : Nat) : (s.takeFree).fld r hi lo = s.fld r hi lo := (rfl)
@[simp] theorem State.bitOf_takeFree (r i : Nat) : (s.takeFree).bitOf r i = s.bitOf r i := (rfl)

/-! ## Cores and contexts -/

@[simp] theorem State.core_setCore_self (k : Nat) (x : CoreState) : (s.setCore k x).core k = x := Sparse.get_set_self _ _ _ _

theorem State.core_setCore_ne {k j : Nat} (x : CoreState) (h : j ≠ k) : (s.setCore k x).core j = s.core j :=
  Sparse.get_set_ne _ _ _ h

@[simp] theorem State.core_modCore_self (k : Nat) (g : CoreState → CoreState) : (s.modCore k g).core k = g (s.core k) :=
  State.core_setCore_self s _ _

theorem State.core_modCore_ne {k j : Nat} (g : CoreState → CoreState) (h : j ≠ k) : (s.modCore k g).core j = s.core j :=
  State.core_setCore_ne s _ h

@[simp] theorem State.core_setReg (a : Nat) (v : Word64) (j : Nat) : (s.setReg a v).core j = s.core j := (rfl)
@[simp] theorem State.ctx_setReg (a : Nat) (v : Word64) (j d : Nat) : (s.setReg a v).ctx j d = s.ctx j d := (rfl)
@[simp] theorem State.sreg_setReg (a : Nat) (v : Word64) (j d i : Nat) : (s.setReg a v).sreg j d i = s.sreg j d i := (rfl)
@[simp] theorem State.core_setFld (a hi lo x : Nat) (j : Nat) : (s.setFld a hi lo x).core j = s.core j := (rfl)
@[simp] theorem State.ctx_setFld (a hi lo x : Nat) (j d : Nat) : (s.setFld a hi lo x).ctx j d = s.ctx j d := (rfl)
@[simp] theorem State.sreg_setFld (a hi lo x : Nat) (j d i : Nat) : (s.setFld a hi lo x).sreg j d i = s.sreg j d i := (rfl)
@[simp] theorem State.core_satInc (a hi lo n : Nat) (j : Nat) : (s.satInc a hi lo n).core j = s.core j := (rfl)
@[simp] theorem State.ctx_satInc (a hi lo n : Nat) (j d : Nat) : (s.satInc a hi lo n).ctx j d = s.ctx j d := (rfl)
@[simp] theorem State.sreg_satInc (a hi lo n : Nat) (j d i : Nat) : (s.satInc a hi lo n).sreg j d i = s.sreg j d i := (rfl)
@[simp] theorem State.core_wrapInc (a hi lo n : Nat) (j : Nat) : (s.wrapInc a hi lo n).core j = s.core j := (rfl)
@[simp] theorem State.ctx_wrapInc (a hi lo n : Nat) (j d : Nat) : (s.wrapInc a hi lo n).ctx j d = s.ctx j d := (rfl)
@[simp] theorem State.sreg_wrapInc (a hi lo n : Nat) (j d i : Nat) : (s.wrapInc a hi lo n).sreg j d i = s.sreg j d i := (rfl)
@[simp] theorem State.core_setBitOf (a i : Nat) (j : Nat) : (s.setBitOf a i).core j = s.core j := (rfl)
@[simp] theorem State.ctx_setBitOf (a i : Nat) (j d : Nat) : (s.setBitOf a i).ctx j d = s.ctx j d := (rfl)
@[simp] theorem State.sreg_setBitOf (a n : Nat) (j d i : Nat) : (s.setBitOf a n).sreg j d i = s.sreg j d i := (rfl)
@[simp] theorem State.core_setPc (k c x : Nat) (j : Nat) : (s.setPc k c x).core j = s.core j := (rfl)
@[simp] theorem State.ctx_setPc (k c x : Nat) (j d : Nat) : (s.setPc k c x).ctx j d = s.ctx j d := (rfl)
@[simp] theorem State.sreg_setPc (k c x : Nat) (j d i : Nat) : (s.setPc k c x).sreg j d i = s.sreg j d i := (rfl)
@[simp] theorem State.core_setSeqState (k c x : Nat) (j : Nat) : (s.setSeqState k c x).core j = s.core j := (rfl)
@[simp] theorem State.ctx_setSeqState (k c x : Nat) (j d : Nat) : (s.setSeqState k c x).ctx j d = s.ctx j d := (rfl)
@[simp] theorem State.sreg_setSeqState (k c x : Nat) (j d i : Nat) : (s.setSeqState k c x).sreg j d i = s.sreg j d i := (rfl)
@[simp] theorem State.core_modPos (p : Nat) (g : PosState → PosState) (j : Nat) : (s.modPos p g).core j = s.core j := (rfl)
@[simp] theorem State.ctx_modPos (p : Nat) (g : PosState → PosState) (j d : Nat) : (s.modPos p g).ctx j d = s.ctx j d := (rfl)
@[simp] theorem State.sreg_modPos (p : Nat) (g : PosState → PosState) (j d i : Nat) : (s.modPos p g).sreg j d i = s.sreg j d i := (rfl)
@[simp] theorem State.core_modPart (p : Nat) (g : PartSt → PartSt) (j : Nat) : (s.modPart p g).core j = s.core j := (rfl)
@[simp] theorem State.ctx_modPart (p : Nat) (g : PartSt → PartSt) (j d : Nat) : (s.modPart p g).ctx j d = s.ctx j d := (rfl)
@[simp] theorem State.sreg_modPart (p : Nat) (g : PartSt → PartSt) (j d i : Nat) : (s.modPart p g).sreg j d i = s.sreg j d i := (rfl)
@[simp] theorem State.core_modFn (f : Nat) (g : FnState → FnState) (j : Nat) : (s.modFn f g).core j = s.core j := (rfl)
@[simp] theorem State.ctx_modFn (f : Nat) (g : FnState → FnState) (j d : Nat) : (s.modFn f g).ctx j d = s.ctx j d := (rfl)
@[simp] theorem State.sreg_modFn (f : Nat) (g : FnState → FnState) (j d i : Nat) : (s.modFn f g).sreg j d i = s.sreg j d i := (rfl)
@[simp] theorem State.core_takeFree (j : Nat) : (s.takeFree).core j = s.core j := (rfl)
@[simp] theorem State.ctx_takeFree (j d : Nat) : (s.takeFree).ctx j d = s.ctx j d := (rfl)
@[simp] theorem State.sreg_takeFree (j d i : Nat) : (s.takeFree).sreg j d i = s.sreg j d i := (rfl)
@[simp] theorem State.core_setFlag (k n : Nat) (j : Nat) : (s.setFlag k n).core j = s.core j := (rfl)
@[simp] theorem State.ctx_setFlag (k n : Nat) (j d : Nat) : (s.setFlag k n).ctx j d = s.ctx j d := (rfl)
@[simp] theorem State.sreg_setFlag (k n : Nat) (j d i : Nat) : (s.setFlag k n).sreg j d i = s.sreg j d i := (rfl)
@[simp] theorem State.core_clrFlag (k n : Nat) (j : Nat) : (s.clrFlag k n).core j = s.core j := (rfl)
@[simp] theorem State.ctx_clrFlag (k n : Nat) (j d : Nat) : (s.clrFlag k n).ctx j d = s.ctx j d := (rfl)
@[simp] theorem State.sreg_clrFlag (k n : Nat) (j d i : Nat) : (s.clrFlag k n).sreg j d i = s.sreg j d i := (rfl)

@[simp] theorem CoreState.ctx_setCtx_self (x : CoreState) (c : Nat) (t : CtxState) : (x.setCtx c t).ctx c = t :=
  Sparse.get_set_self _ _ _ _

theorem CoreState.ctx_setCtx_ne (x : CoreState) {c d : Nat} (t : CtxState) (h : d ≠ c) : (x.setCtx c t).ctx d = x.ctx d :=
  Sparse.get_set_ne _ _ _ h

@[simp] theorem State.ctx_modCtx_self (k c : Nat) (g : CtxState → CtxState) : (s.modCtx k c g).ctx k c = g (s.ctx k c) := by
  unfold State.modCtx State.ctx; simp

theorem State.ctx_modCtx (k c j d : Nat) (g : CtxState → CtxState) :
    (s.modCtx k c g).ctx j d = if j = k ∧ d = c then g (s.ctx k c) else s.ctx j d := by
  unfold State.modCtx State.ctx
  by_cases hj : j = k
  · subst hj
    by_cases hd : d = c
    · subst hd; simp
    · simp [hd, CoreState.ctx_setCtx_ne]
  · simp [hj, State.core_modCore_ne]

/-! ## Scalar registers (R151) -/

/-- s0 reads as zero. -/
@[simp] theorem State.sreg_zero (k c : Nat) : s.sreg k c 0 = 0 := (rfl)

/-- A write to s0 is discarded. -/
@[simp] theorem State.setSreg_zero (k c : Nat) (v : Word64) : s.setSreg k c 0 v = s := (rfl)

/-- A scalar register after a write of one. -/
theorem State.sreg_setSreg (k c i j d n : Nat) (v : Word64) :
    (s.setSreg k c i v).sreg j d n = if j = k ∧ d = c ∧ n = i ∧ i ≠ 0 then v else s.sreg j d n := by
  unfold State.setSreg
  by_cases hi : i = 0
  · simp [hi]
  · simp only [hi, if_false, State.sreg, State.ctx_modCtx]
    by_cases h : j = k ∧ d = c
    · obtain ⟨rfl, rfl⟩ := h
      by_cases hn : n = i
      · subst hn; simp [CtxState.sreg, hi]
      · simp only [hn, and_self, if_true, false_and, and_false, if_false, CtxState.sreg]
        by_cases h0 : n = 0
        · simp [h0]
        · simp [h0, Sparse.get_set_ne _ _ _ hn]
    · rw [if_neg h, if_neg (fun h' => h ⟨h'.1, h'.2.1⟩)]

@[simp] theorem State.setSreg_regs (k c i : Nat) (v : Word64) : (s.setSreg k c i v).regs = s.regs := by
  unfold State.setSreg; split <;> rfl
@[simp] theorem State.setSreg_variant (k c i : Nat) (v : Word64) : (s.setSreg k c i v).variant = s.variant := by
  unfold State.setSreg; split <;> rfl
@[simp] theorem State.setSreg_hbm (k c i : Nat) (v : Word64) : (s.setSreg k c i v).hbm = s.hbm := by
  unfold State.setSreg; split <;> rfl
@[simp] theorem State.setSreg_posns (k c i : Nat) (v : Word64) : (s.setSreg k c i v).posns = s.posns := by
  unfold State.setSreg; split <;> rfl
@[simp] theorem State.setSreg_chorus (k c i : Nat) (v : Word64) : (s.setSreg k c i v).chorus = s.chorus := by
  unfold State.setSreg; split <;> rfl
@[simp] theorem State.reg_setSreg (k c i : Nat) (v : Word64) (a : Nat) : (s.setSreg k c i v).reg a = s.reg a := by
  unfold State.setSreg; split <;> rfl
@[simp] theorem State.fld_setSreg (k c i : Nat) (v : Word64) (a hi lo : Nat) :
    (s.setSreg k c i v).fld a hi lo = s.fld a hi lo := by unfold State.fld; rw [State.reg_setSreg]
@[simp] theorem State.core_setSreg_seqNo (k c i : Nat) (v : Word64) (j : Nat) :
    ((s.setSreg k c i v).core j).seqNo = (s.core j).seqNo := by
  unfold State.setSreg
  split
  · rfl
  · by_cases h : j = k
    · subst h; unfold State.modCtx; simp [CoreState.setCtx]
    · unfold State.modCtx; rw [State.core_modCore_ne _ _ h]

/-! ## Positions and functions -/

theorem State.pos_modPos (p q : Nat) (g : PosState → PosState) : (s.modPos p g).pos q = if q = p then g (s.pos p) else s.pos q :=
  Sparse.get_set _ _ _ _ _

theorem State.fn_modFn (f h : Nat) (g : FnState → FnState) : (s.modFn f g).fn h = if h = f then g (s.fn f) else s.fn h :=
  Sparse.get_set _ _ _ _ _

theorem State.part_modPart (p q : Nat) (g : PartSt → PartSt) :
    (s.modPart p g).part q = if q = p then g (s.part p) else s.part q := Sparse.get_set _ _ _ _ _

/-! ## Flags (R234) -/

theorem State.flag_setFlag_self (k n : Nat) : (s.setFlag k n).flag k n = true := by
  have h : n % 64 < 64 := by omega
  unfold State.flag State.setFlag State.bitOf
  rw [State.reg_setFld_self, bit_setBits_self _ _ _ h]; rfl

theorem State.flag_clrFlag_self (k n : Nat) : (s.clrFlag k n).flag k n = false := by
  have h : n % 64 < 64 := by omega
  unfold State.flag State.clrFlag State.bitOf
  rw [State.reg_setFld_self, bit_setBits_self _ _ _ h]; rfl

end Sys2Proof.Machine
end

