-- ==== Sys2Proof/Laws/Issue.lean ====
section
/-!
SUPPORT. Laws of issue: what `State.issue` does with an instruction that is ready, and what the advance after it leaves.
-/

namespace Sys2Proof.Machine

theorem State.fld_congr {s t : State} (hr : t.regs = s.regs) (hv : t.variant = s.variant) (a hi lo : Nat) :
    t.fld a hi lo = s.fld a hi lo := by unfold State.fld State.reg; rw [hr, hv]

/-- The answer of issue to what the body of a ready instruction gives, `s` being the state that holds its row. -/
def State.afterIssue (s : State) (k op : Nat) (f : IBits) (unit : Nat) (c : CtxId) (pc : Nat) : Issued → State
  | .done s' => s'.issued k c (pc + 8)
  | .jump s' pc' => s'.issued k c pc'
  | .fault s' st addr code => s'.issueFault k c op f unit st addr code
  | .stall => s.stalled k c

/-- A ready instruction runs its body on the state in which it issues. -/
theorem State.issue_ready {s : State} {k : Nat} {rs : List Nat} (h : s.ready k rs) (op : Nat) (f : IBits) (unit : Nat)
    (body : State → CtxId → Issued) :
    s.issue k op f unit rs body =
      (s.fetched k).afterIssue k op f unit (s.running k) (s.runPc k) (body (s.atIssue k) (s.running k)) := by
  obtain ⟨h1, h2, h3, h4, h5⟩ := h
  unfold State.issue
  have hb : rs.any (fun r => ((s.fetched k).ctx k (s.running k).val).busy.contains r) = false := by
    simpa [List.any_eq_false] using h5
  simp only [State.running, State.runPc, State.atIssue, State.fetched] at *
  simp only [h1, h2, h4, hb, Nat.not_lt.mpr h3]
  simp only [Bool.not_true, Bool.false_eq_true, if_false, ne_eq, not_true_eq_false]
  cases body _ _ <;> rfl

/-! ## The advance after an instruction -/

theorem SEQ_ISSUE_CNT_ne_SEQ_PC (k : Nat) (c : CtxId) : R.SEQ_ISSUE_CNT k ≠ R.SEQ_PC k c.val := by
  have := c.isLt
  unfold R.SEQ_ISSUE_CNT R.SEQ_PC
  omega

theorem State.issued_reg (s : State) (k : Nat) (c : CtxId) (pc a : Nat) (h1 : a ≠ R.SEQ_PC k c.val)
    (h2 : a ≠ R.SEQ_ISSUE_CNT k) : (s.issued k c pc).reg a = s.reg a := by
  unfold State.issued State.wrapInc State.setPc
  rw [State.reg_modCore, State.reg_setFld_ne _ _ _ _ h2, State.reg_setFld_ne _ _ _ _ h1]

theorem State.issued_pc (s : State) (k : Nat) (c : CtxId) (pc : Nat) (h : pc < 2 ^ 22) : (s.issued k c pc).pc k c.val = pc := by
  unfold State.issued State.wrapInc State.pc State.setPc
  rw [State.fld_modCore, State.fld_setFld_ne _ _ _ _ _ _ (SEQ_ISSUE_CNT_ne_SEQ_PC k c).symm, State.fld_setFld_self _ _ _ _ _ (by omega)]
  exact Nat.mod_eq_of_lt h

theorem setBits_all (w : Word64) (x : Nat) : setBits w 63 0 x = BitVec.ofNat 64 x := by
  apply BitVec.eq_of_getLsbD_eq
  intro i hi
  rw [setBits_getLsbD]
  have h : i ≤ 63 := by omega
  rw [BitVec.getLsbD_ofNat]
  simp [hi, h]

theorem State.issued_count (s : State) (k : Nat) (c : CtxId) (pc : Nat) :
    (s.issued k c pc).reg (R.SEQ_ISSUE_CNT k) = s.reg (R.SEQ_ISSUE_CNT k) + 1 := by
  unfold State.issued State.wrapInc State.setPc
  rw [State.reg_modCore, State.reg_setFld_self, setBits_all,
    State.fld_setFld_ne _ _ _ _ _ _ (SEQ_ISSUE_CNT_ne_SEQ_PC k c)]
  unfold State.fld bits natBits
  rw [Nat.shiftRight_zero, Nat.mod_eq_of_lt (by have := (s.reg (R.SEQ_ISSUE_CNT k)).isLt; omega)]
  apply BitVec.eq_of_toNat_eq
  simp

theorem State.issued_sreg (s : State) (k : Nat) (c : CtxId) (pc j d i : Nat) :
    (s.issued k c pc).sreg j d i = s.sreg j d i := by
  have h : (s.issued k c pc).ctx j d = s.ctx j d := by
    unfold State.issued State.ctx
    by_cases hj : j = k
    · subst hj; rw [State.core_modCore_self]; rfl
    · rw [State.core_modCore_ne _ _ hj]; rfl
  unfold State.sreg; rw [h]

theorem State.issued_core (s : State) (k : Nat) (c : CtxId) (pc j : Nat) :
    (s.issued k c pc).core j = if j = k then { s.core k with seqNo := (s.core k).seqNo + 1 } else s.core j := by
  unfold State.issued
  split
  · rename_i h; subst h; rw [State.core_modCore_self]; rfl
  · rename_i h; rw [State.core_modCore_ne _ _ h]; rfl

theorem State.setSreg_core (s : State) (k c i : Nat) (v : Word64) (j : Nat) :
    ∃ x, (s.setSreg k c i v).core j = { s.core j with ctxs := x } := by
  unfold State.setSreg
  split
  · exact ⟨_, rfl⟩
  · unfold State.modCtx
    by_cases hj : j = k
    · subst hj; rw [State.core_modCore_self]; exact ⟨_, rfl⟩
    · rw [State.core_modCore_ne _ _ hj]; exact ⟨_, rfl⟩

/-- A write of a scalar register and the advance make a scalar result. -/
theorem State.scalarResult (s : State) (k rd : Nat) (v : Word64) (pc : Nat) (h : pc < 2 ^ 22) :
    ScalarResult s ((s.setSreg k (s.running k).val rd v).issued k (s.running k) pc) k rd v pc := by
  have hq : ∀ j, ∃ x y, (((s.setSreg k (s.running k).val rd v).issued k (s.running k) pc).core j) =
      { s.core j with ctxs := x, seqNo := y } := by
    intro j
    obtain ⟨x, hx⟩ := State.setSreg_core s k (s.running k).val rd v j
    rw [State.issued_core]
    split
    · rename_i hj; subst hj; exact ⟨x, _, by rw [hx]⟩
    · exact ⟨x, _, hx⟩
  have hrun : ((s.setSreg k (s.running k).val rd v).issued k (s.running k) pc).running k = s.running k := by
    obtain ⟨x, y, hxy⟩ := hq k
    exact (congrArg CoreState.run hxy).trans rfl
  refine ⟨?_, ?_, ?_, ?_⟩
  · rw [State.issued_sreg, State.sreg_setSreg]
    by_cases h0 : rd = 0 <;> simp [h0]
  · unfold State.runPc; rw [hrun]; exact State.issued_pc _ _ _ _ h
  · rw [State.issued_count, State.reg_setSreg]
  · refine ⟨?_, ?_, ?_, ?_, ?_⟩
    · intro a h1 h2 _
      rw [State.issued_reg _ _ _ _ _ h1 h2, State.reg_setSreg]
    · intro j c i hne
      rw [State.issued_sreg, State.sreg_setSreg, if_neg]
      rintro ⟨rfl, rfl, rfl, _⟩
      exact hne ⟨rfl, rfl, rfl⟩
    · unfold State.issued
      simp
    · intro j
      obtain ⟨x, y, hxy⟩ := hq j
      rw [hxy]
      exact ⟨rfl, rfl, rfl, rfl, rfl, rfl⟩
    · unfold State.issued State.setSreg
      split <;> simp

end Sys2Proof.Machine
end

