-- ==== Sys2Proof/Laws/Pad.lean ====
section
/-!
SUPPORT. Reads of a scratchpad and the fetch of a row change no core beside the fetch buffer: the records they make lie
elsewhere.
-/

namespace Sys2Proof.Machine

variable (s : State)

theorem State.foldl_cores {β : Type} (f : State → β → State) (h : ∀ s b, (f s b).cores = s.cores) (l : List β) (s : State) :
    (l.foldl f s).cores = s.cores := by
  induction l generalizing s with
  | nil => rfl
  | cons a l ih => rw [List.foldl_cons, ih, h]

@[simp] theorem State.firstErr_cores (a : Nat) (v : Word64) : (s.firstErr a v).cores = s.cores := by
  unfold State.firstErr; split <;> simp

@[simp] theorem State.raiseMsix_cores (f v : Nat) : (s.raiseMsix f v).cores = s.cores := by
  unfold State.raiseMsix; split <;> simp

@[simp] theorem State.nrWrite_cores (f : Nat) (n : Notice) : (s.nrWrite f n).cores = s.cores := by
  unfold State.nrWrite; simp only []; split <;> simp

@[simp] theorem State.notice_cores (f ty : Nat) (st : Status) (b : List Byte) (c : Option Nat) :
    (s.notice f ty st b c).cores = s.cores := by
  unfold State.notice; simp only []; split <;> [skip; split] <;> simp

@[simp] theorem State.noticeAll_cores (ty : Nat) (st : Status) (b : List Byte) : (s.noticeAll ty st b).cores = s.cores := by
  unfold State.noticeAll; simp [State.foldl_cores]

@[simp] theorem State.clusterSync_cores (c : Nat) : (s.clusterSync c).cores = s.cores := by unfold State.clusterSync; simp
@[simp] theorem State.capSyncId_cores : s.capSyncId.cores = s.cores := by unfold State.capSyncId; simp
@[simp] theorem State.capSyncUnit_cores : s.capSyncUnit.cores = s.cores := by unfold State.capSyncUnit; simp
@[simp] theorem State.capSyncStates_cores : s.capSyncStates.cores = s.cores := by unfold State.capSyncStates; simp
@[simp] theorem State.capSyncCores_cores : s.capSyncCores.cores = s.cores := by unfold State.capSyncCores; simp
@[simp] theorem State.capSyncSpares_cores : s.capSyncSpares.cores = s.cores := by unfold State.capSyncSpares; simp

@[simp] theorem State.capSync_cores : s.capSync.cores = s.cores := by unfold State.capSync; simp [State.foldl_cores]

theorem State.capUpdate_cores (f : State → State) (h : ∀ s, (f s).cores = s.cores) : (s.capUpdate f).cores = s.cores := by
  unfold State.capUpdate; split <;> simp [h]

@[simp] theorem State.retireCheck_cores (p : Nat) : (s.retireCheck p).cores = s.cores := by
  unfold State.retireCheck
  simp only []
  split
  · simp only [State.setSys_cores, State.satInc_cores]
    exact State.capUpdate_cores _ _ (fun _ => State.setFld_cores _ _ _ _ _)
  · rfl

@[simp] theorem State.ueEvent_cores (p : Nat) : (s.ueEvent p).cores = s.cores := by unfold State.ueEvent; simp
@[simp] theorem State.rowCand_cores (p w : Nat) : (s.rowCand p w).cores = s.cores := by unfold State.rowCand; simp

@[simp] theorem State.bucketEvent_cores (b : Bucket) : (s.bucketEvent b).cores = s.cores := by
  unfold State.bucketEvent; cases b <;> simp only [] <;> split <;> simp

@[simp] theorem State.coreEvent_cores (p : Nat) : (s.coreEvent p).cores = s.cores := by
  unfold State.coreEvent; split <;> simp

@[simp] theorem State.spUe_cores (k : Option Nat) (p w : Nat) (st : Status) : (s.spUe k p w st).cores = s.cores := by
  unfold State.spUe; simp only []; split <;> split <;> simp

@[simp] theorem State.touchWord_cores (k : Option Nat) (p w : Nat) : (s.touchWord k p w).cores = s.cores := by
  unfold State.touchWord
  simp only []
  repeat' split
  all_goals simp

@[simp] theorem State.padReadP_cores (k : Option Nat) (p off len : Nat) : (s.padReadP k p off len).1.cores = s.cores := by
  unfold State.padReadP; simp [State.foldl_cores]

@[simp] theorem State.padRead_cores (k off len : Nat) : (s.padRead k off len).1.cores = s.cores := by
  unfold State.padRead; split <;> simp

theorem State.core_congr {s t : State} (h : t.cores = s.cores) (k : Nat) : t.core k = s.core k := by
  unfold State.core; rw [h]

/-! ## Reads that change nothing -/

theorem State.touchWord_clean (k : Option Nat) (p w : Nat) (h1 : (s.pos p).pad.resolve w = none)
    (h2 : Sparse.get (fun _ => Err.ok) (s.pos p).pad.errs w = .ok) : s.touchWord k p w = s := by
  unfold State.touchWord
  simp [h1, h2]

theorem State.touch_clean (k : Option Nat) (p : Nat) (ws : List Nat)
    (h : ∀ w ∈ ws, (s.pos p).pad.resolve w = none ∧ Sparse.get (fun _ => Err.ok) (s.pos p).pad.errs w = .ok) :
    ws.foldl (fun s w => s.touchWord k p w) s = s := by
  induction ws with
  | nil => rfl
  | cons w ws ih =>
    rw [List.foldl_cons, State.touchWord_clean s k p w (h w (by simp)).1 (h w (by simp)).2]
    exact ih (fun v hv => h v (by simp [hv]))

theorem mem_wordsOf {off len i : Nat} (h : i < len) : (off + i) / 8 ∈ wordsOf off len := by
  unfold wordsOf
  rw [if_neg (by omega)]
  refine List.mem_map.mpr ⟨(off + i) / 8 - off / 8, List.mem_range.mpr ?_, ?_⟩
  · have : (off + i) / 8 ≤ (off + len - 1) / 8 := Nat.div_le_div_right (by omega)
    omega
  · have : off / 8 ≤ (off + i) / 8 := Nat.div_le_div_right (by omega)
    omega

/-- A clean read gives the stored bytes and leaves the state as it was. -/
theorem State.padRead_clean {k c off len : Nat} (h : s.readsClean k c off len) :
    s.padRead k off len = (s, carried (s.winBytes k off len), 0) := by
  obtain ⟨_, p, hp, hw⟩ := h
  have hs : (s.pos p).pad.readStatus off len = 0 := by
    unfold Pad.readStatus
    have : (wordsOf off len).findSome? (s.pos p).pad.resolve = none := by
      rw [List.findSome?_eq_none_iff]; exact fun w hw' => (hw w hw').1
    rw [this]
  have hb : (s.pos p).pad.readBytes off len = carried (s.winBytes k off len) := by
    unfold Pad.readBytes carried State.winBytes State.padOf
    rw [hp, List.map_map]
    refine List.map_congr_left fun i hi => ?_
    have := (hw _ (mem_wordsOf (off := off) (List.mem_range.mp hi))).1
    simp [this]
  unfold State.padRead
  rw [hp]
  simp only [State.padReadP, hs, hb, State.touch_clean s (some k) p _ hw]

/-- A fetch changes the fetch buffer of its context and nothing else of any core. -/
theorem State.fetchRow_core (k : Nat) (c : CtxId) (row : Nat) :
    s.fetchRow k c row = s ∨ ∃ (t : State) (r : CtxState → List FetchRow), t.cores = s.cores ∧
      s.fetchRow k c row = t.modCtx k c.val (fun x => { x with rows := r x }) := by
  unfold State.fetchRow
  split
  · exact .inl rfl
  · refine .inr ?_
    generalize hr : (if s.owns k c.val (64 * row) 64 then _ else _ : State × FetchRow) = r
    refine ⟨r.1, fun x => (r.2 :: x.rows.filter (fun y => y.row ≠ row)).take 4, ?_, rfl⟩
    subst hr
    split
    · exact State.padRead_cores _ _ _ _
    · rfl

theorem State.withRow_core (k : Nat) (c : CtxId) (pc : Nat) :
    s.withRow k c pc = s ∨ ∃ (t : State) (r : CtxState → List FetchRow), t.cores = s.cores ∧
      s.withRow k c pc = t.modCtx k c.val (fun x => { x with rows := r x }) := by
  unfold State.withRow
  split
  · exact .inl rfl
  · exact State.fetchRow_core s k c _

/-- Every scalar register reads the same once the row of an instruction is there. -/
@[simp] theorem State.sreg_fetched (k j c i : Nat) : (s.fetched k).sreg j c i = s.sreg j c i := by
  unfold State.fetched
  rcases State.withRow_core s k (s.running k) (s.runPc k) with h | ⟨t, r, ht, h⟩
  · rw [h]
  · rw [h]
    unfold State.sreg
    rw [State.ctx_modCtx]
    have hc : t.ctx j c = s.ctx j c := by unfold State.ctx; rw [State.core_congr ht]
    split
    · obtain ⟨rfl, rfl⟩ := ‹_›
      rw [hc]; rfl
    · rw [hc]

/-- The running context stays while a row is fetched. -/
@[simp] theorem State.run_fetched (k j : Nat) : ((s.fetched k).core j).run = (s.core j).run := by
  unfold State.fetched
  rcases State.withRow_core s k (s.running k) (s.runPc k) with h | ⟨t, r, ht, h⟩
  · rw [h]
  · rw [h]
    unfold State.modCtx
    by_cases hj : j = k
    · subst hj; simp [CoreState.setCtx, State.core_congr ht]
    · rw [State.core_modCore_ne _ _ hj, State.core_congr ht]

/-- The end of a wait changes STATE and nothing of a core (R172). -/
@[simp] theorem State.cores_unstalled (k : Nat) (c : CtxId) : (s.unstalled k c).cores = s.cores := by
  unfold State.unstalled; split <;> rfl

/-- The note of a kernel's first issue changes no core. -/
@[simp] theorem State.cores_noteFirst (kn : Kernel) : (s.noteFirst kn).cores = s.cores := by
  have h : ∀ (b : Prop) [Decidable b] (x y : State), x.cores = s.cores → y.cores = s.cores →
      (if b then x else y).cores = s.cores := by
    intro b _ x y hx hy; split <;> assumption
  unfold State.noteFirst
  split
  · rfl
  · exact h _ _ _ rfl rfl

/-- A kernel's first issue marks the kernel of its context and nothing else of any core (R292). -/
theorem State.firstIssue_core (k : Nat) (c : CtxId) :
    s.firstIssue k c = s ∨ ∃ (t : State) (x : Option Kernel), t.cores = (s.modCtx k c.val (fun y => { y with kernel := x })).cores ∧
      s.firstIssue k c = t := by
  unfold State.firstIssue
  split
  · split
    · exact .inl rfl
    · rename_i kn _ _
      refine .inr ⟨_, some { kn with begun := true }, ?_, rfl⟩
      exact State.cores_noteFirst _ _
  · exact .inl rfl

@[simp] theorem State.sreg_firstIssue (k : Nat) (c : CtxId) (j d i : Nat) : (s.firstIssue k c).sreg j d i = s.sreg j d i := by
  rcases State.firstIssue_core s k c with h | ⟨t, x, ht, h⟩
  · rw [h]
  · rw [h]
    have hc : t.ctx j d = (s.modCtx k c.val (fun y => { y with kernel := x })).ctx j d := by
      unfold State.ctx; rw [State.core_congr ht]
    unfold State.sreg
    rw [hc, State.ctx_modCtx]
    split
    · obtain ⟨rfl, rfl⟩ := ‹_›; rfl
    · rfl

@[simp] theorem State.run_firstIssue (k : Nat) (c : CtxId) (j : Nat) : ((s.firstIssue k c).core j).run = (s.core j).run := by
  rcases State.firstIssue_core s k c with h | ⟨t, x, ht, h⟩
  · rw [h]
  · rw [h, State.core_congr ht]
    unfold State.modCtx
    by_cases hj : j = k
    · subst hj; simp [CoreState.setCtx]
    · rw [State.core_modCore_ne _ _ hj]

/-- Every scalar register reads the same in the state in which an instruction issues. -/
@[simp] theorem State.sreg_atIssue (k j c i : Nat) : (s.atIssue k).sreg j c i = s.sreg j c i := by
  unfold State.atIssue
  rw [State.sreg_firstIssue]
  have : ((s.fetched k).unstalled k (s.running k)).ctx j c = (s.fetched k).ctx j c := by
    unfold State.ctx; rw [State.core_congr (State.cores_unstalled _ _ _)]
  unfold State.sreg
  rw [this]
  exact State.sreg_fetched s k j c i

/-- The running context stays. -/
@[simp] theorem State.run_atIssue (k j : Nat) : ((s.atIssue k).core j).run = (s.core j).run := by
  unfold State.atIssue
  rw [State.run_firstIssue, State.core_congr (State.cores_unstalled _ _ _), State.run_fetched]

@[simp] theorem State.running_atIssue (k j : Nat) : (s.atIssue k).running j = s.running j := State.run_atIssue s k j

end Sys2Proof.Machine
end

