-- ==== Sys2Proof/WellFormed.lean ====
section
/-!
DEFINITION. Commands that the manual lets arrive: operands that no agent, partner or interface can produce are ill-formed.
Meanings answer on them too; the check says which commands a claim about the part is about.
-/

namespace Sys2Proof

/-- A bank request lies within one 64-byte row, carries the bytes it says it does, and reads or writes something (R176). -/
def BankReq.wf (r : BankReq) : Bool :=
  decide (1 ≤ r.len) && decide (r.off.toNat % 64 + r.len ≤ 64) &&
    (match r.op with
    | .read => true
    | .write d => decide (d.length = r.len)
    | .atMem (.count n _) | .atMem (.ccount n _ _) | .atMem (.arm n _ _) =>
      decide (n = r.len) && (n == 4 || n == 8) && decide (r.off.toNat % n = 0))

/-- The bytes of a transfer: 16 MiB at most, none of them only where `empty` allows it (R208, R331). The network's packets
carry them in payloads of 64 to 512 B (R25, `Machine.netPackets`). -/
def dataOk {α : Type} (empty : Bool) (d : List α) : Bool := (empty || !d.isEmpty) && decide (d.length ≤ 16777216)

/-- What a message carries fits it. -/
def Packet.wf : Packet → Bool
  | .put m _ => dataOk m.final m.data
  | .write m _ => dataOk false m.data
  | .engine _ r m => decide (r.length ≤ 8) && (match m.kind with
    | .data _ _ b _ => dataOk true b
    | _ => true)
  | _ => true

/-- A command's argument block fits four slots less the header (R434). -/
def Cmd.wf (c : Cmd) : Bool := decide (c.args.length ≤ 192)

/-- Chip ids, hops and states of a beacon are in their fields' ranges (R262). -/
def Beacon.wf (m : Beacon) : Bool := decide (m.hops < 256) && decide (m.state ≤ 4)

/-- Commands whose operands the manual lets arrive. -/
def Instr.wellFormed : Instr → Bool
  | .bankAccess _ _ x _ => x.reqs.all BankReq.wf
  | .putArrival _ m => dataOk m.final m.data
  | .remoteWrite _ m => dataOk false m.data
  | .packetRoute m => m.pkt.wf
  | .transitForward _ m => m.pkt.wf
  | .pwrAsleepRefusal _ m => m.wf
  | .beaconReceive _ m => m.wf
  | .commitAt c | .commitCancel c | .lfBarrierSet c | .fill c | .partitionCreate c | .partitionDestroy c | .inval c
  | .nopCommand c | .traceSet c | .dumpClear c | .shedBegin c | .shedVerify c _
  | .shedActivate c _ | .shedConfirm c | .shedAbort c => c.wf
  | .logRead c | .dumpRead c => c.cmd.wf
  | .hbmRead a n _ => decide (a.toNat % 128 + n.toNat ≤ 128)
  | .hbmWrite a d => decide (a.toNat % 128 + d.length ≤ 128)
  | .barHostWrite _ _ _ d => decide (d.length ≤ 4096)
  | .flashProgram _ d => decide (d.length ≤ 128)
  | .compatWrite _ _ d => dataOk false d
  | .internalMailboxPost _ _ m => decide (m.length = 8)
  | _ => true

end Sys2Proof
end

