-- ==== Sys2Proof/Tests/Slice0.lean ====
section
/-!
SUPPORT. Small tests of one command each, and for every claim with hypotheses a state and operands that meet them.
-/

set_option Elab.async false

namespace Sys2Proof.Tests

open Sys2Proof Sys2Proof.Machine

/-! ## Fixtures -/

/-- Instruction bits with value `p.2` from bit `p.1`. -/
def ib (l : List (Nat × Nat)) : IBits := BitVec.ofNat 56 (l.foldr (fun p a => p.2 * 2 ^ p.1 + a) 0)

/-- Core 0 on position 0, context 0 in RUN with segments 0 and 1, flag group 1, 64 accumulator rows and program slot 0. -/
def bound : State :=
  (((((((State.reset.setReg (R.TOP_SLOT_MAP 0) 0x40000000).setReg (R.TOP_POS 0) 0x20000000).setFld (R.SEQ_STATE 0 0) 2 0
    1).setReg (R.SP_SEG 0 0) 0x80).setReg (R.SP_SEG 0 1) 0x80).setReg (R.FLG_CTX 0 0) 0x101).setReg (R.MA_CTX_ACC 0 0)
    0x400000).setReg (R.VE_CTX 0 0) 1

/-- `bound` with the row of PC 0 in the fetch buffer and scalar registers `l`. -/
def fx (l : Sparse Word64) : State := bound.modCtx 0 0 (fun t => { t with rows := [⟨0, 0, List.replicate 64 0⟩], s := l })

/-- `s` with the first 64 words of position 0 written, byte `i` of them being `i % 128`. -/
def filled (s : State) : State :=
  s.modPos 0 (fun x => { x with pad := { x.pad with
    bytes := ((List.range 512).filter (fun i => i % 128 ≠ 0)).map (fun i => (i, BitVec.ofNat 8 (i % 128))),
    written := (List.range 64).map (fun i => (i, true)) } })

/-- `fx` over a filled scratchpad. -/
def fxw (l : Sparse Word64) : State := filled (fx l)

/-- `State.ready`, evaluated. -/
def rdy (s : State) (k : Nat) (rs : List Nat) : Bool :=
  s.canIssue k && decide (s.runPc k % 8 = 0) && decide (s.runPc k ≤ 0x2F_FFF8) &&
    decide ((s.fetched k).rowStatus k (s.running k) (s.runPc k) = 0) &&
    rs.all (fun r => !((s.fetched k).ctx k (s.running k).val).busy.contains r)

theorem ready_of {s : State} {k : Nat} {rs : List Nat} (h : rdy s k rs = true) : s.ready k rs := by
  simp only [rdy, Bool.and_eq_true, decide_eq_true_eq, List.all_eq_true, Bool.not_eq_true', List.contains_eq_mem,
    decide_eq_false_iff_not] at h
  exact ⟨h.1.1.1.1, h.1.1.1.2, h.1.1.2, h.1.2, h.2⟩

/-- `State.accepts`, evaluated. -/
def acc (s : State) (a : Agent) (addr : Nat) (wide : Bool) (v : Word64) : Bool :=
  decide (s.regCheck a addr (if wide then 8 else 4) (some v) = 0) && !s.regHeld addr &&
    (match blockOf addr with | some (b, o) => !s.unitAbsent b o | none => false) &&
    (match regInfo s.variant addr with
      | some i => decide (i.wide = wide) && decide ((if wide then v else v &&& 0xFFFF_FFFF) &&& ~~~ BitVec.ofNat 64 i.mask = 0)
      | none => false) &&
    (wide || decide (addr % 8 ≠ 4) || !wideAt s.variant (addr - 4)) && !s.shadowLocked addr

theorem accepts_of {s : State} {a : Agent} {addr : Nat} {wide : Bool} {v : Word64} (h : acc s a addr wide v = true) :
    s.accepts a addr wide v := by
  simp only [acc, Bool.and_eq_true, decide_eq_true_eq, Bool.not_eq_true', Bool.or_eq_true] at h
  obtain ⟨⟨⟨⟨⟨h1, h2⟩, h3⟩, h4⟩, h5⟩, h6⟩ := h
  refine ⟨h1, h2, ?_, ?_, ?_, h6⟩
  · cases hb : blockOf addr with
    | none => simp [hb] at h3
    | some p => exact ⟨p.1, p.2, rfl, by simpa [hb] using h3⟩
  · cases hi : regInfo s.variant addr with
    | none => simp [hi] at h4
    | some i => exact ⟨i, rfl, by simpa [hi] using h4⟩
  · intro hw ha
    rcases h5 with (h | h) | h
    · simp [hw] at h
    · exact absurd ha h
    · exact h

/-- `State.readsClean`, evaluated. -/
def rdClean (s : State) (k c off len : Nat) : Bool :=
  s.owns k c off len && (match s.phys k with
    | some p => (wordsOf off len).all (fun w => decide ((s.pos p).pad.resolve w = none) &&
        decide (Sparse.get (fun _ => Err.ok) (s.pos p).pad.errs w = .ok))
    | none => false)

theorem readsClean_of {s : State} {k c off len : Nat} (h : rdClean s k c off len = true) : s.readsClean k c off len := by
  simp only [rdClean, Bool.and_eq_true] at h
  refine ⟨h.1, ?_⟩
  cases hp : s.phys k with
  | none => simp [hp] at h
  | some p => exact ⟨p, rfl, by simpa [hp, List.all_eq_true] using h.2⟩

/-- Every one of the groups of hypotheses below holds. -/
def every (l : List Bool) : Bool := l.all id

/-! ## Ill-formed commands -/

/-- A put of `n` bytes. -/
def putMsg (n : Nat) : PutMsg := ⟨⟨0, 1, 0⟩, none, 0, 0, 0, false, List.replicate n (some 0), 0, 0⟩

/-- A beacon of a tracking parent, `x` in 1/256 ns ahead. -/
def beacon (state hops : Nat) : Beacon := ⟨0, none, 0, hops, state, 0, false, 0⟩

/-- A write of `d` to offset 0 of a window, `lf` from the Leapfrog engine. -/
def wmsg (lf : Bool) (d : List TByte) : WriteMsg := ⟨⟨0, 1, 0⟩, none, lf, 0, 0, 0, d, 0, none⟩

/-- A command of firmware's own with `args`. -/
def own (args : List Byte) : Cmd := ⟨0, none, 0, args⟩

theorem test_wf_bank_row : (Instr.bankAccess 0 0 ⟨0, [⟨.seq, .read, 60, 8, none⟩]⟩ []).wellFormed = false := by decide +kernel
theorem test_wf_bank_empty : (Instr.bankAccess 0 0 ⟨0, [⟨.seq, .read, 0, 0, none⟩]⟩ []).wellFormed = false := by decide +kernel
theorem test_wf_bank_length : (Instr.bankAccess 0 0 ⟨0, [⟨.seq, .write [none], 0, 2, none⟩]⟩ []).wellFormed = false := by
  decide +kernel
theorem test_wf_bank_at_memory : (Instr.bankAccess 0 0 ⟨0, [⟨.dma, .atMem (.count 8 1), 4, 8, none⟩]⟩ []).wellFormed = false := by
  decide +kernel
theorem test_wf_put_payload : (Instr.putArrival 0 (putMsg 0)).wellFormed = false := by decide +kernel
theorem test_wf_remote_write : (Instr.remoteWrite 0 (wmsg false [])).wellFormed = false := by decide +kernel
theorem test_wf_packet : (Instr.packetRoute ⟨0, 1, .put (putMsg 0) 1, none, false⟩).wellFormed = false := by decide +kernel
theorem test_wf_engine : (Instr.packetRoute ⟨0, 1, .engine 1 (List.replicate 9 0) ⟨0, 0, 0, false, 0, .beat⟩, none,
    false⟩).wellFormed = false := by decide +kernel
theorem test_wf_sleep_refusal : (Instr.pwrAsleepRefusal 0 (.write (wmsg false []) 0)).wellFormed = false := by decide +kernel
theorem test_wf_beacon_hops : (Instr.beaconReceive 0 (beacon 2 256)).wellFormed = false := by decide +kernel
theorem test_wf_beacon_state : (Instr.beaconReceive 0 (beacon 5 0)).wellFormed = false := by decide +kernel
theorem test_wf_command : (Instr.fill (own (List.replicate 193 0))).wellFormed = false := by decide +kernel
theorem test_wf_hbm_read : (Instr.hbmRead 0x20 97 []).wellFormed = false := by decide +kernel
theorem test_wf_hbm_write : (Instr.hbmWrite 0x7F [none, none]).wellFormed = false := by decide +kernel
theorem test_wf_host_write : (Instr.barHostWrite 0 .bar2 0 (List.replicate 4097 0)).wellFormed = false := by decide +kernel
theorem test_wf_flash : (Instr.flashProgram ⟨0, false⟩ (List.replicate 129 0)).wellFormed = false := by decide +kernel
theorem test_wf_compat : (Instr.compatWrite 0 0 []).wellFormed = false := by decide +kernel
theorem test_wf_internal_mailbox : (Instr.internalMailboxPost 0 1 [0]).wellFormed = false := by decide +kernel
theorem test_wf_add : (Instr.add 0 0).wellFormed = true := by decide +kernel

/-! ## The sequencer -/

/-- The state that commands of other tests start from: s1 = 5, s2 = 2^63, s3 = 64, s4 = 0x18. -/
def sq : State := fxw [(1, 5), (2, 0x8000000000000000), (3, 64), (4, 0x18)]

/-- RD = 7, RA = `a`, RB = `b`. -/
def r3 (a b : Nat) : IBits := ib [(51, 7), (46, a), (41, b)]

/-- s7 of the running context after a command. -/
def s7 (o : Host.Outcome State Fault Refusal) : Word64 := match o with | .next t => t.sreg 0 0 7 | _ => 0
/-- The PC after a command. -/
def pcOf (o : Host.Outcome State Fault Refusal) : Nat := match o with | .next t => t.runPc 0 | _ => 1
/-- Whether a property holds of the next state. -/
def aft (o : Host.Outcome State Fault Refusal) (p : State → Bool) : Bool := match o with | .next t => p t | _ => false

theorem test_add_wraps : s7 (exec (.add 0 (r3 2 2)) sq) = 0 := by decide +kernel
theorem test_sub : s7 (exec (.sub 0 (r3 0 1)) sq) = 0xFFFFFFFFFFFFFFFB := by decide +kernel
theorem test_and : s7 (exec (.and 0 (r3 1 4)) sq) = 0 := by decide +kernel
theorem test_or : s7 (exec (.or 0 (r3 1 4)) sq) = 0x1D := by decide +kernel
theorem test_xor : s7 (exec (.xor 0 (r3 1 4)) sq) = 0x1D := by decide +kernel
theorem test_shl_by_64_is_by_0 : s7 (exec (.shl 0 (r3 1 3)) sq) = 5 := by decide +kernel
theorem test_shrl : s7 (exec (.shrl 0 (r3 2 1)) sq) = 0x0400000000000000 := by decide +kernel
theorem test_shra_sign : s7 (exec (.shra 0 (r3 2 1)) sq) = 0xFC00000000000000 := by decide +kernel
theorem test_mul_low_half : s7 (exec (.mul 0 (r3 2 1)) sq) = 0x8000000000000000 := by decide +kernel
theorem test_min_signed : s7 (exec (.min 0 (r3 1 2)) sq) = 0x8000000000000000 := by decide +kernel
theorem test_max_signed : s7 (exec (.max 0 (r3 1 2)) sq) = 5 := by decide +kernel
theorem test_minu : s7 (exec (.minu 0 (r3 1 2)) sq) = 5 := by decide +kernel
theorem test_maxu : s7 (exec (.maxu 0 (r3 1 2)) sq) = 0x8000000000000000 := by decide +kernel
theorem test_slt_negative : s7 (exec (.slt 0 (r3 2 1)) sq) = 1 := by decide +kernel
theorem test_sltu : s7 (exec (.sltu 0 (r3 2 1)) sq) = 0 := by decide +kernel
theorem test_addi_sign : s7 (exec (.addi 0 (ib [(51, 7), (46, 1), (0, 0xFFFFFFFF)])) sq) = 4 := by decide +kernel
theorem test_andi_zero_extends : s7 (exec (.andi 0 (ib [(51, 7), (46, 2), (0, 0xFFFFFFFF)])) sq) = 0 := by decide +kernel
theorem test_ori : s7 (exec (.ori 0 (ib [(51, 7), (46, 1), (0, 0x80000000)])) sq) = 0x80000005 := by decide +kernel
theorem test_xori : s7 (exec (.xori 0 (ib [(51, 7), (46, 1), (0, 1)])) sq) = 4 := by decide +kernel
theorem test_shli : s7 (exec (.shli 0 (ib [(51, 7), (46, 1), (0, 63)])) sq) = 0x8000000000000000 := by decide +kernel
theorem test_shrli : s7 (exec (.shrli 0 (ib [(51, 7), (46, 2), (0, 63)])) sq) = 1 := by decide +kernel
theorem test_shrai : s7 (exec (.shrai 0 (ib [(51, 7), (46, 2), (0, 63)])) sq) = 0xFFFFFFFFFFFFFFFF := by decide +kernel
theorem test_slti : s7 (exec (.slti 0 (ib [(51, 7), (46, 2), (0, 0xFFFFFFFF)])) sq) = 1 := by decide +kernel
theorem test_lil_sign : s7 (exec (.lil 0 (ib [(51, 7), (47, 1)])) sq) = 0xFFFF800000000000 := by decide +kernel
theorem test_lih : s7 (exec (.lih 0 (ib [(51, 7), (0, 0xABCD)])) (fx [(7, 1)])) = 0xABCD000000000001 := by decide +kernel
theorem test_nop_advances : pcOf (exec (.nop 0 0) sq) = 8 := by decide +kernel
theorem test_b_not_taken : pcOf (exec (.b 0 (ib [(47, 1), (42, 1), (37, 2), (0, 0x40)])) sq) = 8 := by decide +kernel
theorem test_b_taken : pcOf (exec (.b 0 (ib [(47, 2), (42, 1), (37, 2), (0, 0x40)])) sq) = 0x40 := by decide +kernel
theorem test_bl_links : s7 (exec (.bl 0 (ib [(51, 7), (0, 0x40)])) sq) = 8 := by decide +kernel
theorem test_bx_own_register : pcOf (exec (.bx 0 (ib [(51, 4), (42, 4)])) sq) = 0x18 := by decide +kernel
theorem test_sld_signed : s7 (exec (.sld 0 (ib [(51, 7), (44, 0), (43, 1), (0, 0x7F)])) sq) = 0x7F := by decide +kernel
theorem test_sld_little_endian : s7 (exec (.sld 0 (ib [(51, 7), (44, 1), (46, 4)])) sq) = 0x1918 := by decide +kernel
theorem test_sst_bytes : aft (exec (.sst 0 (ib [(51, 1), (44, 1), (46, 4)])) sq) (fun t =>
    (t.pos 0).pad.byte 0x18 == 5 && (t.pos 0).pad.byte 0x19 == 0 && (t.pos 0).pad.byte 0x1A == 0x1A) = true := by decide +kernel
theorem test_end_is_ending : aft (exec (.endKernel 0 0) sq) (fun t => t.seqState 0 0 == 5) = true := by decide +kernel
theorem test_trap_faults : aft (exec (.trap 0 7) sq) (fun t => t.seqState 0 0 == 6 && t.runPc 0 == 0) = true := by decide +kernel
theorem test_zero_register : s7 (exec (.add 0 (ib [(51, 0), (46, 1), (41, 1)])) sq) = 0 := by decide +kernel
theorem test_reserved_bit_faults : aft (exec (.add 0 (ib [(51, 7), (0, 1)])) sq) (fun t => t.seqState 0 0 == 6) = true := by decide +kernel

theorem meets_Arithmetic :
    (let f := r3 1 2; sq.ready 0 [fRA f, fRB f, fRD f] ∧ bits f 40 0 = 0) ∧
    (let f := ib [(51, 31), (46, 31), (0, 63)]; sq.ready 0 [fRA f, fRD f] ∧ bits f 45 32 = 0 ∧ bits f 31 6 = 0) :=
  ⟨⟨ready_of (by decide +kernel), by decide +kernel⟩, ready_of (by decide +kernel), by decide +kernel, by decide +kernel⟩

theorem meets_ConstantsTimeAndNop : sq.ready 0 [fRD (ib [(51, 7), (45, 1)])] ∧
    (let f := ib [(51, 7), (47, 1)]; sq.ready 0 [fRD f] ∧ bits f 50 48 = 0) ∧
    (let f := ib [(51, 7), (15, 1)]; sq.ready 0 [fRD f] ∧ bits f 50 16 = 0) ∧
    (let f := ib [(51, 7), (45, 1)]; bits f 50 46 = 0 ∧ bits f 44 0 = 0) ∧ sq.ready 0 [fRD 0] :=
  ⟨ready_of (by decide +kernel), ⟨ready_of (by decide +kernel), by decide +kernel⟩, ⟨ready_of (by decide +kernel), by decide +kernel⟩, by decide +kernel, ready_of (by decide +kernel)⟩

theorem meets_Branches :
    (let f := ib [(47, 12), (42, 1), (37, 2), (0, 0x2FFFF8)];
      sq.ready 0 [bits f 46 42, bits f 41 37] ∧ branchUnused f = false ∧ bits f 50 47 < 13 ∧ bits f 21 0 % 8 = 0 ∧
        bits f 21 0 ≤ 0x2F_FFF8) ∧
    (let f := ib [(51, 7), (0, 0x2FFFF8)];
      sq.ready 0 [fRD f] ∧ bits f 50 22 = 0 ∧ bits f 21 0 % 8 = 0 ∧ bits f 21 0 ≤ 0x2F_FFF8) ∧
    (let f := ib [(51, 4), (42, 4)];
      sq.ready 0 [fRD f, bits f 46 42] ∧ bits f 50 47 = 0 ∧ bits f 41 0 = 0 ∧ (sq.runReg 0 4).toNat % 8 = 0 ∧
        (sq.runReg 0 4).toNat ≤ 0x2F_FFF8) :=
  ⟨⟨ready_of (by decide +kernel), by decide +kernel⟩, ⟨ready_of (by decide +kernel), by decide +kernel⟩, ready_of (by decide +kernel), by decide +kernel⟩

theorem meets_ScalarLoadAndStore :
    (let f := ib [(51, 7), (44, 3), (46, 4)];
      let u := sq.atIssue 0
      sq.ready 0 [fRD f, fRA f] ∧ bits f 42 32 = 0 ∧ ¬ (bit f 43 = true ∧ fSize f = 8) ∧ u.effAddr 0 0 f % fSize f = 0 ∧
        u.effAddr 0 0 f + fSize f ≤ padSize ∧ u.owns 0 0 (u.effAddr 0 0 f) (fSize f) = true ∧
        (u.padOf 0).readStatus (u.effAddr 0 0 f) (fSize f) = 0) ∧
    (let f := ib [(51, 1), (44, 0), (46, 3), (0, 0x1C0)];
      let u := sq.atIssue 0
      sq.ready 0 [fRD f, fRA f] ∧ u.phys 0 = some 0 ∧ bits f 43 32 = 0 ∧ u.effAddr 0 0 f % fSize f = 0 ∧
        u.effAddr 0 0 f + fSize f ≤ padSize ∧ u.owns 0 0 (u.effAddr 0 0 f) (fSize f) = true ∧
        (u.pos 0).pad.resolve (u.effAddr 0 0 f / 8) = some 0x0702) :=
  ⟨⟨ready_of (by decide +kernel), by decide +kernel⟩, ready_of (by decide +kernel), by decide +kernel⟩

/-- `sq` with context 0 in TIMED since Chorus 0x400. -/
def timedSt : State :=
  { (sq.setFld (R.SEQ_STATE 0 0) 2 0 4).modCtx 0 0 (fun t => { t with launch := some ⟨0x100, 7, false⟩ }) with chorus := 0x301 }

theorem meets_LaunchAtAndRelease :
    (let f := ib [(51, 7), (46, 1), (41, 1)];
      sq.ready 0 [fRD f, fRA f] ∧ bits (ib [(51, 7), (46, 1)]) 37 0 = 0 ∧
        (sq.atIssue 0).launchTarget 0 0 (ib [(51, 7), (46, 1)]) ≤ (sq.atIssue 0).chorus.toNat + 2 ^ 40 ∧
        (sq.atIssue 0).chorus.toNat < (sq.atIssue 0).launchTarget 0 0 (ib [(51, 7), (46, 1)])) ∧
    (let s := { sq with chorus := 0x600 };
      let f := ib [(51, 7), (46, 1)]
      s.ready 0 [fRD f, fRA f] ∧ (s.atIssue 0).launchTarget 0 0 f < (s.atIssue 0).chorus.toNat) ∧
    ((timedSt.ctx 0 0).launch = some ⟨0x100, 7, false⟩ ∧ (0x100 : Chorus) ≤ timedSt.chorus ∧ timedSt.running 0 = 0 ∧
      timedSt.seqState 0 0 = 4) :=
  ⟨⟨ready_of (by decide +kernel), by decide +kernel⟩, ⟨ready_of (by decide +kernel), by decide +kernel⟩, by decide +kernel⟩

/-- `sq` with a kernel in context 0, in SEQ_STATE `st`. -/
def kern (st : Nat) : State :=
  (sq.setFld (R.SEQ_STATE 0 0) 2 0 st).modCtx 0 0 (fun t => { t with kernel := some ⟨3, false, none, 0, false, false⟩ })

theorem meets_KernelEndsAndFaults : sq.ready 0 [] ∧ (kern 5).seqState 0 0 = 5 ∧ ((kern 5).core 0).workLeft 0 = false ∧
    bits (0xFFFF : IBits) 55 16 = 0 ∧ (kern 3).seqState 0 0 ≠ 0 ∧ (kern 3).seqState 0 0 ≠ 6 ∧
    opcodeStatus (bits (0x4400000000000000 : Word64) 63 56) = some 0x0301 ∧
    opcodeStatus (bits (0x5F00000000000000 : Word64) 63 56) = some 0x0501 :=
  ⟨ready_of (by decide +kernel), by decide +kernel⟩

theorem test_reserved_opcode_faults : aft (exec (.contextFault 0 0 0 0 0 (.word 0xFF00000000000000)) sq) (fun t =>
    t.seqState 0 0 == 6 && t.runPc 0 == 0) = true := by decide +kernel

/-- `sq` with a result still to come in s1. -/
def busy1 : State := sq.modCtx 0 0 (fun t => { t with busy := [1] })

theorem test_busy_register_stalls : aft (exec (.add 0 (r3 1 2)) busy1) (fun t => t.seqState 0 0 == 2 && t.runPc 0 == 0) = true := by
  decide +kernel

theorem meets_InstructionFetch : (busy1.ready 0 [] ∧ 1 ∈ [fRA (r3 1 2), fRB (r3 1 2), fRD (r3 1 2)] ∧
    1 ∈ ((busy1.fetched 0).ctx 0 0).busy) ∧ (bound.phys 0).isSome = true ∧ (0xBFFF : BitVec 16).toNat < 0xC000 ∧
    (bound.setReg (R.SP_SEG 0 47) 0).owns 0 0 (64 * 0xBFFF) 64 = false ∧ sq.owns 0 0 64 64 = true ∧ (sq.padOf 0).readStatus 64 64 = 0 :=
  ⟨⟨ready_of (by decide +kernel), by decide +kernel⟩, by decide +kernel⟩

/-! ## The matrix array -/

/-- Held buffer 0 holds two columns of one FP8 row, 1.0 and 2.0; s1 is an operand word at 0x38 and s2 the scales 1.0 and 1.0. -/
def mx : State :=
  (fxw [(1, 0x38), (2, 0x3F8000003F800000)]).modCore 0 (fun x => { x with seqNo := 5, h0 := ⟨true, false, 4, 1, 2, [[0x38, 0x40]]⟩ })

/-- The tile of accumulator rows 62 and 63 of context 0, two columns, open. -/
def tile62 : Tile := ⟨0, 62, 1, false, 2, 0, 0x3F8000003F800000, 0x3F800000, 1, none, false, false, false, false, true⟩

/-- `mx` with that tile. -/
def mxt : State := mx.modCore 0 (fun x => { x with tiles := [tile62] })

def mholdF : IBits := ib [(50, 4), (45, 1), (38, 0), (32, 1)]
def mmulF (open_ : Nat) : IBits := ib [(52, open_), (48, 4), (43, 1), (38, 2), (28, 62), (20, 1)]
def mdrainF (keep : Nat) : IBits := ib [(46, 62), (38, 1), (34, 0), (29, 1), (28, keep)]

theorem meets_MatrixIssue :
    (mx.core 0).mq.length < 8 ∧
    (mx.ready 0 [bits mholdF 49 45] ∧ Fmt.ofCode (bits mholdF 53 50) = some .e4m3 ∧ matAccepts (bits mholdF 53 50) = true ∧
      bits mholdF 31 0 = 0 ∧ opReserved (mx.runReg 0 1) = false ∧ bits mholdF 44 38 < 64 ∧
      (let rs := rowRanges (opBase (mx.runReg 0 1)) (opStride (mx.runReg 0 1)) (matBytes .e4m3 2) 1;
        rowsFit rs = true ∧ (mx.atIssue 0).ownsRows 0 0 rs = true)) ∧
    (∀ o ∈ [(1, mx), (0, mxt)], o.2.ready 0 [1, 2] ∧ ((o.2.atIssue 0).core 0).heldView false = some ⟨false, 4, 1, 2⟩ ∧
      matCombo 0 4 4 = true ∧ bits (mmulF o.1) 19 17 = 0 ∧ bits (mmulF o.1) 3 0 = 0 ∧ flagUnused (mmulF o.1) = false ∧
      (let rs := rowRanges (opBase (o.2.runReg 0 1)) (opStride (o.2.runReg 0 1)) (matBytes .e4m3 1) 2;
        rowsFit rs = true ∧ (o.2.atIssue 0).ownsRows 0 0 rs = true) ∧
      62 + tileRows 1 (matAccFmt 0 4) ≤ (o.2.atIssue 0).fld (R.MA_CTX_ACC 0 0) 26 16 ∧
      (o.2.atIssue 0).flagBad 0 0 (mmulF o.1) = false) ∧
    (∀ t ∈ ((mx.atIssue 0).core 0).tiles, t.ctx = 0 → t.cseq = none → tileOverlap t.row t.nvec t.afmt 62 1 0 = false) ∧
    ((mxt.atIssue 0).core 0).openTile 0 62 1 = some tile62 ∧ tile62.role = false ∧ tile62.w = 2 ∧ tile62.afmt = 0 ∧
    tile62.scales = mxt.runReg 0 2 ∧
    (∀ f ∈ [mdrainF 0, mdrainF 1], mxt.ready 0 [bits f 33 29] ∧
      ((mxt.atIssue 0).core 0).openTile 0 (bits f 55 46) (bits f 45 38) = some tile62 ∧ bits f 26 17 = 0 ∧ bits f 3 0 = 0 ∧
      flagUnused f = false ∧ bits f 37 34 = tile62.afmt ∧ opBase (mxt.runReg 0 1) % 8 = 0 ∧
      rowsFit (drainRanges (mxt.runReg 0 1) 2 1 0 false) = true ∧
      (mxt.atIssue 0).ownsRows 0 0 (drainRanges (mxt.runReg 0 1) 2 1 0 false) = true ∧
      (mxt.atIssue 0).flagBad 0 0 f = false) :=
  ⟨by decide +kernel, ⟨ready_of (by decide +kernel), by decide +kernel⟩, by
    intro o h; simp only [List.mem_cons, List.not_mem_nil, or_false] at h
    rcases h with rfl | rfl
    · exact ⟨ready_of (by decide +kernel), by decide +kernel⟩
    · exact ⟨ready_of (by decide +kernel), by decide +kernel⟩, by decide +kernel, by decide +kernel, by decide +kernel, by decide +kernel, by decide +kernel, by decide +kernel, by
    intro f h; simp only [List.mem_cons, List.not_mem_nil, or_false] at h
    rcases h with rfl | rfl
    · exact ⟨ready_of (by decide +kernel), by decide +kernel⟩
    · exact ⟨ready_of (by decide +kernel), by decide +kernel⟩⟩

/-- Matrix work of context 0 in the queue. -/
def mEntry (kind : MatKind) (f : IBits) : MatEntry := ⟨kind, 0, 2, 0x10, f, 0x38, 0x3F8000003F800000⟩

/-- `mxt` with that work queued. -/
def mxq (kind : MatKind) (f : IBits) : State := mxt.modCore 0 (fun x => { x with mq := [mEntry kind f] })

/-- An MMUL of one vector into the tile of row 62 alone, queued. -/
def mmul1F : IBits := ib [(48, 4), (43, 1), (38, 2), (28, 62)]
def mx1 : State := mx.modCore 0 (fun x => { x with tiles := [{ tile62 with nvec := 0 }], mq := [mEntry .mmul mmul1F] })

theorem meets_MatrixDiscardAndReadFault :
    (mxt.ready 0 [] ∧ bits (ib [(46, 62), (38, 1)]) 37 0 = 0 ∧ ((mxt.atIssue 0).core 0).mq = [] ∧
      ((mxt.atIssue 0).core 0).openTile 0 62 1 = some tile62 ∧ tile62.oseq < ((mxt.atIssue 0).core 0).seqNo ∧
      ∀ t1 ∈ ((mxt.atIssue 0).core 0).tiles, t1.ctx = 0 → t1.row = 62 → t1.nvec = 1 → t1.oseq = tile62.oseq) ∧
    (let s := mxq .mhold mholdF;
      (s.core 0).holdReady = some (mEntry .mhold mholdF) ∧ (7 : BitVec 19).toNat ∈ (s.core 0).operandWords (mEntry .mhold mholdF) ∧
      s.phys 0 = some 0 ∧ Sparse.get (fun _ => false) (s.pos 0).pad.written 7 = true ∧ s.seqState 0 0 ≠ 0 ∧ s.seqState 0 0 ≠ 6 ∧
      s.segClassW 0 ((7 : BitVec 19).toNat / 0x2000) = false ∧ Code.classA.corrects < 2 ∧ 2 ≤ Code.classA.detects) ∧
    (let m := mEntry .mmul mmul1F;
      mx1.streamReady 0 = some m ∧ (mx1.core 0).tileFor 0 62 0 2 = some { tile62 with nvec := 0 } ∧
      Fmt.ofCode (bits mmul1F 51 48) = some .e4m3 ∧ bit mmul1F 52 = false ∧ bits mmul1F 27 20 = 0 ∧ bits mmul1F 37 28 = 62 ∧
      (∀ a ∈ (mx1.core 0).mq, a.kind ≠ .mdiscard) ∧ rdClean mx1 0 0 0x38 (matBytes .e4m3 1) = true ∧ opBase m.opw = 0x38 ∧
      (mx1.core 0).held (matHbuf mmul1F) = ⟨true, false, 4, 1, 2, [[0x38, 0x40]]⟩ ∧
      62 = vecRow (mx1.fld (R.MA_CTX_ACC 0 0) 9 0) 62 0 0 ∧ (62 * 64 + 1) / 64 = 62 ∧ (62 * 64 + 1) % 64 < 2 ∧
      (mx1.core 0).accPoison 62 1 = false) :=
  ⟨⟨ready_of (by decide +kernel), by decide +kernel⟩, by decide +kernel, by decide +kernel⟩

theorem meets_MatrixLoadsAndStreams :
    (let s := mxq .mhold mholdF;
      s.shut 0 = false ∧ (s.core 0).holdReady = some (mEntry .mhold mholdF) ∧ Fmt.ofCode (bits mholdF 53 50) = some .e4m3 ∧
      ∀ j, j < 1 → rdClean s 0 0 (0x38 + j * 0) (matBytes .e4m3 2) = true) ∧
    (∀ o ∈ [0, 1], (mxq .mmul (mmulF o)).streamReady 0 = some (mEntry .mmul (mmulF o)) ∧
      ((mxq .mmul (mmulF o)).core 0).tileFor 0 62 1 2 = some tile62 ∧ Fmt.ofCode (bits (mmulF o) 51 48) = some .e4m3 ∧
      ∀ j, j < 2 → rdClean (mxq .mmul (mmulF o)) 0 0 (0x38 + j * 0) (matBytes .e4m3 1) = true) := by decide +kernel

/-- A drain of the tile over an unwritten scratchpad. -/
def drainSt : State :=
  (fx []).modCore 0 (fun x => { x with tiles := [{ tile62 with cseq := some 2 }], mq := [mEntry .mdrain (mdrainF 0)] })

theorem meets_MatrixDrainRuns :
    drainSt.shut 0 = false ∧ drainSt.phys 0 = some 0 ∧ (drainSt.core 0).drainNext = some (mEntry .mdrain (mdrainF 0)) ∧
    (drainSt.core 0).tileFor 0 62 1 2 = some { tile62 with cseq := some 2 } ∧ bit (mdrainF 0) 27 = false ∧
    (∀ j, j ≤ 1 → drainSt.owns 0 0 (0x38 + j * 0) (2 * 4) = true) ∧
    (∀ w, (drainSt.pos 0).pad.resolve w = none ∨ (drainSt.pos 0).pad.resolve w = some 0x0702) ∧ 0x38 % 8 = 0 ∧
    ∀ i, Sparse.get (fun _ => false) (drainSt.core 0).accBad i = false :=
  ⟨by decide +kernel, by decide +kernel, by decide +kernel, by decide +kernel, by decide +kernel, by decide +kernel, fun _ => Or.inr rfl, by decide +kernel, fun _ => rfl⟩

/-- Core 0 with activity level `l`, credit `q`, and the tables that let it run ballast. -/
def levelSt (l q : Nat) : State :=
  ((bound.setFld (R.MA_LEVEL 0) 20 16 l).setFld (R.MA_LEVEL 0) 6 0 q).setFld (R.MA_BALLAST_CTL 0) 31 31 1

theorem meets_BallastAndLevel :
    (let s := levelSt 16 0;
      s.bitOf (R.MA_BALLAST_CTL 0) 31 = true ∧ 0 < s.level 0 ∧ 16 ≤ min 96 (s.credit 0 + s.level 0) ∧ (s.core 0).vectorReady = false) ∧
    (let s := (mxq .mmul (mmulF 0)).setFld (R.MA_LEVEL 0) 20 16 0; (s.core 0).vectorReady = true ∧ s.level 0 < s.lmax 0) := by decide +kernel

/-! ## The vector engine -/

/-- `fxw` with vector register 2 of lanes 1.0. -/
def vx (l : Sparse Word64) : State :=
  (fxw l).modCore 0 (fun x => { x with vregs := (List.range 64).map (fun i => (128 + i, 0x3F800000#32)) })

def vldF : IBits := ib [(51, 3), (47, 0), (42, 1)]
def vopF : IBits := ib [(50, 2), (46, 0), (41, 3), (36, 2), (31, 2)]
def vrowF : IBits := ib [(49, 1)]
def nrunF : IBits := ib [(53, 0), (48, 1), (43, 28), (38, 5)]

/-- s1 to s5 for VROW: input rows at 0, output at 0x100, four elements a row. -/
def vrowS : State := fx [(1, 0), (2, 0x100), (5, 3)]

/-- Program slot 0 holds a program of one input and one output; s1, s2 and s5 for NRUN: input at 0, output at 0x100, 64 elements. -/
def nrunS : State :=
  (fx [(1, 0), (2, 0x100), (5, 64)]).modCore 0 (fun x => { x with slots := [(0, [0x00, 0x11, 0, 0, 0, 0, 0, 0])] })

/-- `nrunS` with an NLOAD of slot 0 queued. -/
def nrunLate : State := nrunS.modCore 0 (fun x => { x with vq := [⟨.nload, 0, 2, 0x10, ib [(53, 0)], [0], false⟩] })

theorem meets_VectorIssue :
    every [
      let s := vx [(1, 0x100)];
      decide ((s.core 0).vq.length < 8 ∧ rdy s 0 [1] = true ∧ bits vldF 41 0 = 0 ∧ (s.runReg 0 1).toNat < 2 ^ 22 ∧ bits vldF 50 47 ≠ 15 ∧
      oddPair .fp32 3 = false ∧ (s.runReg 0 1).toNat % vAlign .fp32 = 0 ∧ (s.runReg 0 1).toNat + blockBytes .fp32 64 ≤ padSize ∧
      (s.atIssue 0).owns 0 0 0x100 (blockBytes .fp32 64) = true),
      let f := ib [(52, 1), (48, 0), (43, 3), (38, 2), (35, 5)];
      decide (rdy (vx []) 0 [] = true ∧ bits f 33 0 = 0 ∧ bits f 55 52 ≠ 15 ∧ bits f 51 48 ≠ 15 ∧ bits f 37 35 < 6 ∧
      oddPair (fmtOf (bits f 51 48)) (bits f 47 43) = false ∧ oddPair (fmtOf (bits f 55 52)) (bits f 42 38) = false),
      let f := ib [(53, 4), (49, 0), (44, 2), (39, 7), (38, 1)];
      decide (rdy (vx []) 0 [bits f 43 39] = true ∧ bits f 37 0 = 0 ∧ bits f 55 53 = 4 ∧ bits f 52 49 ≠ 15 ∧
      vredTypeOk (bits f 55 53) (bits f 52 49) = true ∧ oddPair (fmtOf (bits f 52 49)) (bits f 48 44) = false),
      let f := ib [(53, 0), (48, 1)];
      let s := vx [(1, 0x2E_FFF8)];
      decide (rdy s 0 [1] = true ∧ bits f 47 0 = 0 ∧ (s.runReg 0 1).toNat % 8 = 0 ∧ (s.runReg 0 1).toNat + 8 ≤ padSize ∧
      (s.atIssue 0).bitOf (R.VE_CTX 0 0) 0 = true ∧ (s.atIssue 0).owns 0 0 0x2E_FFF8 8 = true),
      decide (rdy (vx []) 0 [0] = true ∧ bits (0 : IBits) 50 0 = 0),
      decide (rdy (vx []) 0 [] = true ∧ vopUnused vopF = false ∧ vReserved (bits vopF 55 50) = false ∧ bits vopF 55 50 ≠ 0x0F ∧
      vClass (bits vopF 49 46) ≤ 1 ∧ vTypeOk (bits vopF 55 50) (vClass (bits vopF 49 46)) = true),
      let r := rowShape vrowF [0, 0x100, 0, 0, 3];
      let rs := [(0, 16), (0x100, 4)];
      decide (rdy vrowS 0 [1, 2, 3, 4, 5] = true ∧ (List.range 5).map (fun i => vrowS.runReg 0 (1 + i)) = [0, 0x100, 0, 0, 3] ∧
      rs = r.operands.flatMap (fun o => rowRanges (opBase o.1) (opStride o.1) o.2 r.rcnt) ∧ bits vrowF 46 17 = 0 ∧ bits vrowF 3 0 = 0 ∧ flagUnused vrowF = false ∧
      r.operands.all (fun o => !opReserved o.1) = true ∧ bits (vrowS.runReg 0 5) 63 32 = 0 ∧ r.rfn ≠ 3 ∧
      [r.win, r.wout].all (fun w => opBase w % 4 == 0 && opStride w % 4 == 0) = true ∧ rowsFit rs = true ∧
      (vrowS.atIssue 0).ownsRows 0 0 rs = true ∧ r.clash = false ∧ (vrowS.atIssue 0).flagBad 0 0 vrowF = false),
      let img := [0x00#8, 0x11#8, 0, 0, 0, 0, 0, 0];
      let ws := [0#64, 0x100#64];
      decide (img = (nrunS.core 0).slotImg 0 ∧ ws = [nrunS.runReg 0 1, nrunS.runReg 0 2] ∧ nrunS.runReg 0 5 = 64 ∧ newtNin (newtHdr img) + newtNout (newtHdr img) = 2 ∧ rdy nrunS 0 [1, 2, 28, 29, 30, 31, 5] = true ∧
      (nrunS.core 0).vq = [] ∧ bits nrunF 37 17 = 0 ∧ bits nrunF 3 0 = 0 ∧ flagUnused nrunF = false ∧
      ws.all (fun w => !opReserved w) = true ∧ (nrunS.atIssue 0).bitOf (R.VE_CTX 0 0) 0 = true ∧
      (nrunS.atIssue 0).flagBad 0 0 nrunF = false ∧
      ((nrunS.atIssue 0).nrunChecks 0 0 img 64 ws).all (fun p => !p.1) = true),
      decide (rdy nrunLate 0 [1, 2, 3, 4, 5, 6, 28, 29, 30, 31, 5] = true ∧ (nrunLate.core 0).vq.length = 1 ∧
        bits (ib [(53, 0)]) 55 53 = bits nrunF 55 53 ∧ bits nrunF 52 48 + 6 ≤ 32 ∧ bits nrunF 47 43 + 4 ≤ 32)] = true := by decide +kernel

/-- Vector work of context 0 at the front of the queue. -/
def vxq (kind : VecKind) (f : IBits) (args : List Word64) : State :=
  (vx []).modCore 0 (fun x => { x with vq := [⟨kind, 0, 2, 0x10, f, args, false⟩] })

theorem meets_VectorStarts :
    (∀ s ∈ [vxq .vop vopF [0], vxq .vld vldF [0x100], vxq .vseed 0 [7]], s.shut 0 = false ∧ (s.core 0).vq.length = 1) ∧
    bits vopF 55 50 ≠ 0 ∧ (∀ i, Sparse.get (fun _ => false) ((vxq .vop vopF [0]).core 0).vbad i = false) ∧
    rdClean (vxq .vld vldF [0x100]) 0 0 0x100 (blockBytes .fp32 64) = true :=
  ⟨by decide +kernel, by decide, fun _ => rfl, by decide +kernel⟩

def vstF : IBits := ib [(51, 2), (47, 0), (42, 1)]

theorem meets_VectorStoreAndReadFault :
    (let s := vxq .vst vstF [0x104];
      (s.core 0).vq = [⟨.vst, 0, 2, 0x10, vstF, [0x104], false⟩] ∧ s.phys 0 = some 0 ∧ s.shut 0 = false ∧
      s.owns 0 0 0x104 (blockBytes .fp32 64) = true ∧ (∀ i, Sparse.get (fun _ => false) (s.core 0).vbad i = false) ∧
      (∀ w ∈ wordsOf 0x104 (blockBytes .fp32 64), (s.pos 0).pad.resolve w = none ∨ (s.pos 0).pad.resolve w = some 0x0702 ∨
        (0x104 ≤ 8 * w ∧ 8 * w + 8 ≤ 0x104 + blockBytes .fp32 64)) ∧
      (191 : BitVec 11).toNat / 64 ∈ vecRegs ⟨.vst, 0, 2, 0x10, vstF, [0x104], false⟩ ∧ s.seqState 0 0 ≠ 0 ∧ s.seqState 0 0 ≠ 6) :=
  ⟨by decide +kernel, by decide +kernel, by decide +kernel, by decide +kernel, fun _ => rfl, by decide +kernel, by decide +kernel,
    by decide +kernel, by decide +kernel⟩

/-! ## Flags and waiting -/

def flagF (grp n : Nat) : IBits := ib [(55, grp), (50, 1), (4, n)]

/-- WAIT for flag `n`, s7 its result, with no deadline, or with s1 nanoseconds. -/
def waitF (inf : Nat) : IBits := ib [(51, 7), (46, 1 - inf), (41, 2), (40, 0), (39, 1), (38, inf), (36, 0)]

/-- s1 is 0x64 and s2 names flag 64. -/
def wx : State := fx [(1, 0x64), (2, 64)]

/-- Context 0 waits for flag 64 or 65 until 2 ns. -/
def wpend (set : Bool) : State :=
  ({ (wx.setFld (R.SEQ_STATE 0 0) 2 0 3).modCtx 0 0 (fun t => { t with wait := some ⟨false, false, 1, [64, 65], 7, some 2, none⟩ })
    with chorus := 0x200 }).setReg (R.FLG_STATE 0 1) (if set then 2 else 0)

theorem meets_FlagInstructions :
    every [
      let f := ib [(4, 64)];
      decide (bits f 49 16 = 0 ∧ bits f 3 0 = 0 ∧ rdy wx 0 [0] = true ∧ bits f 54 50 = 0 ∧ (wx.atIssue 0).flagOk 0 0 64 = true),
      let f := flagF 1 64;
      decide (bits f 49 16 = 0 ∧ bits f 3 0 = 0 ∧ rdy wx 0 [1] = true ∧ bits f 15 4 % 64 = 0 ∧ wx.runReg 0 1 ≠ 0 ∧
      (wx.atIssue 0).groupOk 0 0 1 = true),
      let f := ib [(51, 7), (50, 1), (4, 64)];
      decide (bits f 49 16 = 0 ∧ rdy wx 0 [7] = true ∧ bits f 15 4 % 64 = 0 ∧ (wx.atIssue 0).groupOk 0 0 1 = true)] = true := by decide +kernel

theorem meets_Waits :
    every [
      [0, 1].all (fun i => [0#64, 1#64].all (fun n => let s := wx.setReg (R.FLG_STATE 0 1) n;
        decide (rdy s 0 [7, 1, 0, 2] = true ∧ bits (waitF i) 35 0 = 0 ∧ (bit (waitF i) 38 = true → fRA (waitF i) = 0) ∧
          listReserved (s.runReg 0 2) 0 = false ∧ bits (s.runReg 0 (fRA (waitF i))) 63 40 = 0 ∧
          (s.atIssue 0).flagOk 0 0 64 = true))),
      decide ((wpend true).openWait 0 0 = some ⟨false, false, 1, [64, 65], 7, some 2, none⟩),
      decide ((wpend true).waitHolds 0 ⟨false, false, 1, [64, 65], 7, some 2, none⟩ = true),
      decide ((wpend false).openWait 0 0 = some ⟨false, false, 1, [64, 65], 7, some 2, none⟩),
      decide (2 ≤ (wpend false).chorusNs),
      decide ((wpend false).waitHolds 0 ⟨false, false, 1, [64, 65], 7, some 2, none⟩ = false)] = true := by decide +kernel

/-! ## The scratchpad -/

def bankReq (p : Port) (op : BankOp) : BankReq := ⟨p, op, 0x3E, 2, some 0⟩

theorem meets_ScratchpadBanks :
    every [
      let s := fxw [];
      decide (s.shut 0 = false ∧ s.phys 0 = some 0 ∧ (s.core 0).bank.pend = [] ∧ (s.core 0).bank.used = [] ∧
      (s.core 0).bank.cclk ≤ 3 ∧ (s.core 0).bank.held = [] ∧ rdClean s 0 0 0x3E 2 = true ∧
      reqFits (bankReq .dma (.write [some 1, none])) (bankOf 0x3E) = true ∧ s.owns 0 0 0x3E 2 = true ∧
      (∀ w ∈ wordsOf 0x3E 2, (s.pos 0).pad.resolve w = none) ∧ reqFits (bankReq .ma .read) (bankOf 0x3E) = true ∧
      reqFits (bankReq .inb .read) (bankOf 0x3E) = true ∧
      kindRank .read * 5 + portRank .ma < kindRank .read * 5 + portRank .inb ∧
      kindRank .read * 5 + portRank .inb < kindRank (.write []) * 5 + portRank .seq),
      let s := (fxw []).modCore 0 (fun x => { x with bank := { x.bank with cclk := 2, held := [((bankOf 0x3E), 3)] } });
      decide (s.shut 0 = false ∧ (s.core 0).bank.pend = [] ∧ (s.core 0).bank.used = [] ∧ (s.core 0).bank.cclk ≤ 3 ∧
        (s.core 0).bank.held = [((bankOf 0x3E), 3)]),
      let s := (fxw []).modPos 0 (fun x => { x with pad := { x.pad with errs := [(5, .corr)], wb := [5] } });
      decide (s.phys 0 = some 0 ∧ (5 : BitVec 19).toNat ∈ (s.pos 0).pad.wb)] = true := by decide +kernel

/-- A read and a write of one row that arrive together: the read goes first and returns what the row held (R178, R179). -/
theorem test_read_before_write : aft (exec (.bankAccess 0 0 ⟨3, [⟨.seq, .write [some 9], 1, 1, some 0⟩, ⟨.dma, .read, 0, 2, some 0⟩]⟩
    []) (fxw [])) (fun t => (t.core 0).bank.out == some ⟨⟨.dma, .read, 0, 2, some 0⟩, [some 0, some 1], 0⟩ &&
      (t.core 0).bank.pend.map (fun r => r.req.port) == [.seq]) = true := by decide +kernel

/-- A word of the tile that its code cannot correct is poisoned, and the tile's UE is set; its value stays (R103). -/
theorem test_accumulator_word_lost :
    aft (exec (.mmulStream 0 [(62 * 64 + 1, .wrong 2)]) (mxq .mmul (mmulF 0))) (fun t =>
      (t.core 0).accPoison 62 1 && !(t.core 0).accPoison 62 0 && (t.core 0).tiles.any (fun x => x.ue) &&
        decide ((t.core 0).accWord 62 1 = ((mxq .mmul (mmulF 0)).core 0).accWord 62 1) && (t.pos 0).pad.ueCnt == 1) = true := by
  decide +kernel
/-- A correction there counts one event in the position's bucket, and so does one of a vector register (R387). -/
theorem test_corrections_count :
    aft (exec (.mdrainRun 0 [(62 * 64, .wrong 1)]) drainSt) (fun t => decide (t.fld (R.HBM_CBKT 0) 15 0 = 1)) = true ∧
    ((vxq .vop vopF [0]).vecCorrected 0 1).fld (R.HBM_CBKT 0) 15 0 = 1 := by decide +kernel
def countF : IBits := ib [(51, 7), (46, 1), (41, 2), (36, 3), (34, 3)]
def ctflagF : IBits := ib [(51, 7), (46, 1), (41, 2), (34, 3), (4, 64)]

/-- s1 names the counter at 0x38 of core 0's own window. -/
def cx (a v : Word64) : State := fxw [(1, a), (2, v), (3, 1)]

theorem meets_Counters :
    every [
      let s := cx 0x10000000038 0x3F3E3D3C3B3A3938;
      decide (rdy s 0 [7, 1, 2, 3] = true ∧ (s.runReg 0 1).toNat = 0x10000000038 ∧
        (s.atIssue 0).coreTranslate 0 0 0x10000000038 8 true = (s, [(0x10000000038, 8)], 0) ∧
        s.coreAccess 0 0 [(0x10000000038, 8)] = 0 ∧ s.regionOf 0x10000000038 8 = some (.window 0) ∧ s.phys 0 = some 0 ∧
        rdClean s 0 0 (winOff 0x10000000038) 8 = true ∧ winOff 0x10000000038 % 8 = 0 ∧ 2 ≤ bits countF 35 34 ∧
        atUnused countF true true false = false ∧ atUnused (ib [(51, 7), (46, 1), (41, 2), (34, 3)]) false true false = false),
      [0x3F3E3D3C3B3A3938#64, 0x3F3E3D3C3B3A3939#64].all (fun thr => let s := cx 0x38 thr;
        decide (rdy s 0 [7, 1, 2] = true ∧ atUnused ctflagF false true true = false ∧ 2 ≤ bits ctflagF 35 34 ∧
          (s.runReg 0 1).toNat % 8 = 0 ∧ (s.runReg 0 1).toNat + 8 ≤ padSize ∧ rdClean (s.atIssue 0) 0 0 0x38 8 = true ∧
          (s.atIssue 0).flagOk 0 0 (bits ctflagF 15 4) = true ∧ ((s.atIssue 0).ctx 0 0).watches.length < 16))] = true := by
  decide +kernel

/-- s1 names unit 1 of core 1 of chip 0 and s2 asks for two units. -/
def crx : State := fx [(1, 0x401000), (2, 0x2000)]

/-- Context 0 waits for a credit response for s7 since 1000 ns. -/
def crw : State :=
  { bound.modCtx 0 0 (fun t => { t with credits := [⟨0, 7, false, 0x401000, 0, 9, false⟩], busy := [7] }) with ns := 1000000 }

theorem meets_CreditMessages :
    every [
      let f := ib [(51, 7), (46, 1), (41, 2)];
      decide (rdy crx 0 [7, 1, 2, 0] = true ∧ atUnused f false false false = false ∧ bits (crx.runReg 0 1) 49 32 = 0 ∧
        bits (crx.runReg 0 1) 21 0 % 4096 = 0 ∧ (crx.runReg 0 2).toNat % 4096 = 0 ∧ 0 < (crx.runReg 0 2).toNat ∧
        (crx.runReg 0 2).toNat ≤ padSize),
      decide ((crw.ctx 0 0).credit 9 = some ⟨0, 7, false, 0x401000, 0, 9, false⟩ ∧ crw.tooOld 0 (crw.stamp) = false ∧
        crw.partOf 0 0 = none ∧ (crw.takeAnswer (crw.self 0 0) 9).isNone ∧ bits (0x401000 : Word64) 63 50 = 0 ∧
        crw.net.any (answersXfer (crw.self 0 0) 9) = false ∧
        0 + max 1 (crw.fld (R.SP_CREDIT_CFG 0) 15 0) * 1000 ≤ crw.ns),
      let s := crw.modCtx 0 0 (fun t => { t with credits := [⟨0, 7, false, 0x4000000401000, 0, 9, false⟩] });
      decide ((s.ctx 0 0).credit 9 = some ⟨0, 7, false, 0x4000000401000, 0, 9, false⟩ ∧ (s.takeAnswer (s.self 0 0) 9).isNone ∧
        bits (0x4000000401000 : Word64) 63 50 ≠ s.chipId),
      let s := { crw with net := [.resp (crw.self 0 0) 9 0 0x55 0] };
      decide ((s.takeAnswer (s.self 0 0) 9).map (fun x => (x.2.1, x.2.2)) = some (0, 0x55, 0) ∧ s.tooOld 0 0 = false)] = true := by decide +kernel

/-- The target of a message, if it names one. -/
def tgt (s : State) (job : Option (BitVec 16)) (core : Nat) : Option (Option Nat × Nat) :=
  match s.target job core with | .ok r => some r | .error _ => none

/-- Units 1 to 3 of core 0 FREE. -/
def offered : State := bound.modCore 0 (fun x => { x with units := [(1, .free), (2, .free), (3, .free)] })

def crMsg (arg : Word64) : CreditMsg := ⟨⟨0, 5, 0⟩, none, 0, 0x1000, arg, 0, 4⟩

/-- Grant 2, generation 3, of unit 1 to core 5, with a lease of 1 us. -/
def granted : State :=
  { bound.modCore 0 (fun x => { x with units := [(1, .granted)],
                                       grants := [(2, ⟨true, 3, some ⟨0, 5, 0⟩, false, 1, 1, 0, 1, none⟩)] }) with ns := 1000 }

theorem meets_GrantsBeginAndEnd :
    every [
      decide (offered.shut 0 = false ∧ tgt offered none 0 = some (none, 0) ∧ offered.tooOld 0 0 = false ∧
        offered.boundOwns 0 (1 * 4096) 1 none = true ∧ (offered.core 0).unit 1 = .free ∧ offered.freeGrant 0 = some 0 ∧
        offered.segOwner 0 0 = some 0),
      decide (granted.shut 0 = false ∧ tgt granted none 0 = some (none, 0) ∧ granted.tooOld 0 0 = false ∧
        ((granted.core 0).grant (bits (0x3002#64) 7 0)).used = true ∧ ((granted.core 0).grant 2).lf = false ∧
        ((granted.core 0).grant 2).gen = BitVec.ofNat 4 (bits (0x3002#64) 15 12) ∧
        ((granted.core 0).grant 2).src = some (crMsg 0x3002).src ∧ ((granted.core 0).grant 2).lease ≠ 0 ∧
        ((granted.core 0).grant 2).madeAt + ((granted.core 0).grant 2).lease * 1000 ≤ granted.ns)] = true := by decide +kernel

/-! ## Register writes -/

theorem meets_CoreRangeWrites :
    every [
      decide (acc bound (.fw 2) (R.MA_CTX_ACC 0 1) false 0x3C00040 = true ∧ bits (0x3C00040 : BitVec 32) 9 0 = 64 ∧
        bits (0x3C00040 : BitVec 32) 26 16 = 960 ∧
        [0, 2, 3].all (fun d => !overlaps 64 960 (bound.fld (R.MA_CTX_ACC 0 d) 9 0) (bound.fld (R.MA_CTX_ACC 0 d) 26 16)) = true),
      decide (acc bound (.fw 2) (R.VE_CTX 0 1) false 0xFE = true ∧
        [0, 2, 3].all (fun d => bits (bound.reg (R.VE_CTX 0 d) &&& 0xFE) 7 0 == 0) = true),
      decide (acc bound (.fw 2) (R.FLG_CTX 0 1) false 0x3E02 = true ∧ bound.seqState 0 1 = 0 ∧
        bits (0x3E02 : BitVec 32) 5 0 + bits (0x3E02 : BitVec 32) 13 8 ≤ 64 ∧
        [0, 2, 3].all (fun d => (groupsOf (bound.reg (R.FLG_CTX 0 d))).all (fun g => !(groupsOf 0x3E02).contains g)) = true),
      acc bound (.fw 1) (R.MA_BALLAST_CTL 0) false 0x80000001, acc bound (.fw 1) (R.MA_RISE_CTL 0) false 0x501] = true := by
  decide +kernel

theorem meets_WindowRegisterWrites :
    every [
      acc bound (.fw 2) (R.SP_SEG 0 47) false 0x90, acc bound (.fw 2) (R.SP_SEG 0 0) false 0x80, decide (bound.phys 0 = some 0),
      acc bound (.core 0) (R.SP_RX_CTL 0 0) false 0x40000000, acc bound (.core 0) (R.SP_RX_CTL 0 0) false 0x80000C00,
      decide (bound.owns 0 0 0 (4 * 4096) = true),
      acc bound (.core 0) (R.SP_PG_CTL 0 0) false 0x80000000, acc bound (.core 0) (R.SP_PG_CFG 0 0) false 0x86000000,
      decide (bits (0x86000000 : BitVec 32) 26 23 < 13 ∧ bound.owns 0 0 0 (8 * 2 ^ bits (0x86000000 : BitVec 32) 26 23) = true),
      acc bound (.fw 2) (R.FLG_FW_SET 0) true 3, acc bound (.fw 2) (R.FLG_FW_CLR 0) true 3] = true := by decide +kernel

/-! ## Work submission -/

/-- `s` with partition 0, context 0 of cluster 0 and function 0, 32 core numbers, and its first 4 MiB mapped to HBM. -/
def parted (s : State) : State :=
  let t : List TlbEntry := [⟨0, 0, 0, 0x20_0000, true⟩, ⟨0, 0x20_0000, 0x20_0000, 0x20_0000, true⟩]
  ({ s with fe := { s.fe with tlb := t }, lfTlb := t }.modPos 0 (fun x => { x with tlb := t })).setReg (R.MMU_PCFG 0)
    0x8002000000000001

/-- Ring 0 of function 0 in STAT.STATE `st`, of 16 entries each way, records at host address 0x1000. -/
def ringSt (st : Nat) : State :=
  (((parted bound).setReg (R.FE_RING_CFG 0 0) 0x80000404).setFld (R.FE_RING_STAT 0 0) 31 29 st).setReg (R.FE_CQ_BASE 0 0) 0x1000

theorem meets_RingControl :
    every [
      let s := (parted bound).setReg (R.FE_RING_CFG 0 0) 0;
      acc s (.host 0) (R.FE_RING_CFG 0 0) false 0x80001004 && decide (s.bitOf (R.FE_RING_CFG 0 0) 31 = false ∧
        s.ringState 0 0 = 0 ∧ (s.partOfFunc 0).isSome = true),
      acc (ringSt 3) (.host 0) (R.FE_RING_CFG 0 0) false 0x404 && decide ((ringSt 3).bitOf (R.FE_RING_CFG 0 0) 31 = true ∧
        (ringSt 3).ringState 0 0 = 3 ∧ (ringSt 3).fld (R.FE_RING_CFG 0 0) 12 8 = 4 ∧ (ringSt 3).fld (R.FE_RING_CFG 0 0) 4 0 = 4),
      decide ((15 : Nat) < (ringSt 1).sqSize 0 0 ∧ (ringSt 1).ringState 0 0 = 1 ∧ 15 < (ringSt 1).cqSize 0 0),
      decide (¬ 16 < (ringSt 1).sqSize 0 0)] = true := by decide +kernel

/-- Device queue 3 of function 0 of 16 entries at 0x10000, filled by cores, with one entry. -/
def queueSt : State :=
  ((((parted bound).setReg (R.FE_Q_CFG 0 3) 0xC0000004).setReg (R.FE_Q_BASE 0 3) 0x10000).setFld (R.FE_Q_PTR 0 3) 31 16 0).setFld
    (R.FE_Q_PTR 0 3) 15 0 0xFFFF

/-- `s` with context 0 of core 0 waiting on queue 3 with s7. -/
def basked (s : State) : State := s.modCtx 0 0 (fun t => { t with bask := some ⟨0, 0, 3, 7, 0x40, some 0, none, none, 5⟩ })

def queueIssue : State :=
  filled (queueSt.modCtx 0 0 (fun t => { t with rows := [⟨0, 0, List.replicate 64 0⟩], s := [(1, 5), (2, 0x40)] }))

theorem meets_DeviceQueues :
    every [
      acc (parted bound) (.host 0) (R.FE_Q_CFG 0 3) false 0xC000000C && decide ((parted bound).bitOf (R.FE_Q_CFG 0 3) 31 = false),
      acc queueSt (.host 0) (R.FE_Q_CFG 0 3) false 0x40000004 && decide (queueSt.bitOf (R.FE_Q_CFG 0 3) 31 = true ∧
        queueSt.fld (R.FE_Q_CFG 0 3) 3 0 = 4 ∧ queueSt.bitOf (R.FE_Q_CFG 0 3) 30 = true),
      let s := basked queueSt;
      decide (s.queueCount 0 3 ≠ 0 ∧ s.partOfFunc 0 = some 0 ∧ (s.part 0).quar = none ∧ s.bitOf (R.FE_Q_CFG 0 3) 31 = true ∧
        s.postedBefore 0 (s.doorOf 0) = false ∧ s.fe.returned.find? (fun r => r.func == 0 && r.queue == 3) = none ∧
        s.firstWaiter 0 3 = some (0, 0, ⟨0, 0, 3, 7, 0x40, some 0, none, none, 5⟩)),
      let s := { basked queueSt with fe := { (basked queueSt).fe with returned := [⟨0, 3, ⟨5, [], 0⟩⟩] } };
      decide ((s.fe.returned.find? (fun r => r.func == 0 && r.queue == 3)).isSome ∧ (s.firstWaiter 0 3).isSome ∧
        s.postedBefore 0 (s.doorOf 0) = false),
      let s := basked (parted bound);
      decide ((s.ctx 0 0).bask = some ⟨0, 0, 3, 7, 0x40, some 0, none, none, 5⟩ ∧ 0 ≤ s.chorusNs ∧ s.queueHas 0 3 = false),
      let f := ib [(51, 7), (46, 1), (41, 2), (32, 3)];
      let u := queueIssue.atIssue 0;
      decide (u.funcOf 0 0 = some 0 ∧ u.bitOf (R.FE_Q_CFG 0 3) 31 = true ∧ qId f = 3 ∧ bits (queueIssue.runReg 0 2) 63 22 = 0 ∧
        bits f 31 0 = 0 ∧ u.owns 0 0 0x40 64 = true ∧ rdy queueIssue 0 [7, 1, 2] = true ∧ bits (queueIssue.runReg 0 1) 63 40 = 0),
      let f := ib [(51, 7), (41, 2), (32, 3)];
      let u := queueIssue.atIssue 0;
      decide (rdy queueIssue 0 [7, 2] = true ∧ bit f 40 = false ∧ fRA f = 0 ∧ u.bitOf (R.FE_Q_CFG 0 3) 30 = true ∧
        u.partOf 0 0 = some 0 ∧ u.queueCount 0 3 < 2 ^ u.fld (R.FE_Q_CFG 0 3) 3 0 ∧ rdClean u 0 0 0x40 64 = true ∧
        (u.feWrite 0 (u.queueSlot 0 3 (u.fld (R.FE_Q_PTR 0 3) 31 16)) (carried (u.winBytes 0 0x40 64))).2 = 0)] = true := by
  decide +kernel

/-- A KERNEL descriptor of core 0 at 0x200, serial `id`, target `t`. -/
def kdesc (id : Nat) (t : Option Chorus) : Desc :=
  { descOf (leBytes 8 0x1000000000200000 ++ List.replicate 56 0) id 0 0 2 id false with target := t, ready := true }

/-- `ringSt 1` with those descriptors. -/
def withDescs (ds : List Desc) : State := { ringSt 1 with fe := { (ringSt 1).fe with descs := ds, nextId := 9 } }

theorem meets_DescriptorsRun :
    every [
      let s := (ringSt 1).modRing 0 0 (fun x => { x with tail := 15 });
      decide (s.partOfFunc 0 = some 0 ∧ s.ringState 0 0 = 1 ∧ s.fld (R.FE_SQ_HEAD 0 0) 15 0 ≠ (s.ring 0 0).tail ∧
        ((s.ringDescs 0 0).filter (fun d => !d.chained && !d.begun)).length < 16 ∧
        s.descChecks 0 (descOf (leBytes 8 0x2000000000000000 ++ List.replicate 56 0) 0 0 0 0 0 false) = none),
      [none, some 0, some 1].all (fun t => let s := (withDescs [kdesc 4 t]).setFld (R.SEQ_STATE 0 0) 2 0 0;
        decide (s.desc 4 = some (kdesc 4 t) ∧ s.partOfFunc 0 = some 0 ∧ (kdesc 4 t).kind = 1 ∧ s.mayStart (kdesc 4 t) = true ∧
          (s.part 0).quar = none ∧ s.heldBack (kdesc 4 t) = false) &&
          (s.descCores 0 (kdesc 4 t)).all (fun k => s.coreIdle k 0 && !s.coreRetires k)),
      (let s := bound.setFld (R.SEQ_STATE 0 0) 2 0 0;
        let raw := descOf (leBytes 8 0x1000000000200000 ++ List.replicate 56 0) s.fe.nextId internalRing 0 0 s.fe.nextId false;
        decide (s.internalChecks raw = none ∧ raw.lmode = 0 ∧ s.freeCtx (s.namedCores raw) = some 0)),
      let s := bound.modCtx 0 0 (fun t => { t with timed := some ⟨0, true, ⟨4, false, some 0, 0, false, false⟩, 0x200, [1, 2, 3, 4, 5, 6]⟩ });
      decide ((s.ctx 0 0).timed = some ⟨0, true, ⟨4, false, some 0, 0, false, false⟩, 0x200, [1, 2, 3, 4, 5, 6]⟩ ∧ s.running 0 = 0 ∧
        s.ringFull ⟨4, false, some 0, 0, false, false⟩ = false ∧ s.relocks (s.coreDie 0) = false),
      let d := { kdesc 4 none with started := true };
      let s := withDescs [d];
      decide (s.desc 4 = some d ∧ d.func ≠ internalRing ∧ d.barr = false ∧ d.chain = false ∧ d.kind = 1 ∧ d.left = [] ∧ s.ringState 0 0 ≠ 4 ∧
        d.quiet = false ∧ s.bitOf (R.FE_RING_STAT 0 0) 2 = false ∧ (s.ring 0 0).held = []),
      let d := { descOf (leBytes 8 0x2040000000000000 ++ List.replicate 56 0) 4 0 0 2 4 false with ready := true };
      let s := withDescs [d];
      decide (s.desc 4 = some d ∧ d.kind ≠ 1 ∧ s.mayStart d = true ∧ d.target = none ∧ d.quiet = true ∧ d.late = false)] = true := by decide +kernel

/-- Ring 0 of function 0 with its chain at 0x20000, whose descriptor 1 is a MARKER, read already for `kdesc 7`. -/
def chainSt (rd : List (Nat × Nat × Desc)) : State :=
  ({ ringSt 1 with hbm := { HbmState.reset with bytes := [(0x20047, 0x20)], wrote := [(0x801, true)] } }.setReg
    (R.FE_CHAIN_BASE 0) 0x20000).modRing 0 0 (fun x => { x with chainRd := rd })

theorem meets_DescriptorsRun_chain :
    ((chainSt []).feRead 0 0x20040).2 = (carried (leBytes 8 0x2000000000000000 ++ List.replicate 56 0), 0) := by
  decide +kernel

theorem meets_DescriptorsRun_checks :
    decide (((chainSt [(7, 1, kdesc 7 none)]).ring 0 0).chainRd = [(7, 1, kdesc 7 none)] ∧
      (chainSt [(7, 1, kdesc 7 none)]).ringState 0 0 = 1 ∧ (chainSt [(7, 1, kdesc 7 none)]).partOfFunc 0 = some 0 ∧
      ((chainSt []).reg (R.FE_CHAIN_BASE 0)).toNat + 64 * 1 = 0x20040 ∧
      ((chainSt []).feRead 0 0x20040).1.descChecks 0 (descOf (leBytes 8 0x2000000000000000 ++ List.replicate 56 0) 0 0 0 1 7 true) = none) = true := by
  decide +kernel

/-- Barrier group 2 of chips 0 and 1, this being chip 0, at DONE `n`; the member list at 0x10000 of HBM. -/
def barSt (n : Nat) : State :=
  ((({ bound with hbm := { HbmState.reset with bytes := [(0x10001, 0xC0), (0x10002, 0x01), (0x10003, 0xC0)],
                                               wrote := [(0x400, true)] } }.setReg
    (R.LF_GRP 2 0) (BitVec.ofNat 64 (2 ^ 57 + 2 ^ 42))).setReg (R.LF_GRP 2 3) 0x10000).setFld (R.CHR_STEP 2) 63 32 n)

/-- A descriptor that waits for step `step` of group 2. -/
def bdesc (step : Nat) : Desc :=
  descOf (leBytes 8 0x2800000000000000 ++ leBytes 8 (0x200000000 + step) ++ List.replicate 48 0) 4 0 0 2 4 false

theorem meets_StepBarriers :
    every [
      let s := barSt 6;
      let t := { s with chr := { s.chr with arrivals := [(2, 1, 7)] } };
      decide (s.barGroup 2 = true ∧ s.barRoot 2 = some 0 ∧ s.chipId = 0 ∧ s.lfMembers 2 = [(3, 0), (3, 1)] ∧
        t.barGroup 2 = true ∧ t.barRoot 2 = some 0 ∧ t.lfMembers 2 = [(3, 0), (3, 1)] ∧ t.chr.arrivals = [(2, 1, 7)] ∧
        t.fld (R.CHR_STEP 2) 63 32 + 1 < 2 ^ 32),
      let s := { barSt 6 with fe := { (barSt 6).fe with descs := [bdesc 7] }, chr := { (barSt 6).chr with arrAt := [(2, 7, 0)] },
                              ns := 4000000000 };
      decide (s.desc 4 = some (bdesc 7) ∧ (bdesc 7).lmode = 2 ∧ (bdesc 7).ready = false ∧ (bdesc 7).bgrp = 2 ∧
        (bdesc 7).step = 7 ∧ s.fld (R.CHR_STEP 2) 63 32 < 7 ∧
        s.chr.arrAt.find? (fun e => e.1 == 2 && e.2.1 == 7) = some (2, 7, 0) ∧
        0 + max 1 (s.fld R.CHR_BARRIER_CFG 31 16) * 1000000 ≤ s.ns ∧ s.ringMode 2 = false ∧
        s.pending.any (isArrival 2 7) = false)] = true := by decide +kernel

def late (e : BitVec 4) : Stamped := ⟨1, 0, some 0, 0, 5, e⟩

/-- Partition 0 with a fault reported. -/
def quarSt : State :=
  (parted bound).modPart 0 (fun x => { x with quar := some ⟨some 0, 1, 0x0606, 0, 0, false, 0x10, 7, 0xFF, 0x3B00000000000007, 0, 0, none⟩ })

theorem meets_LateAndQuarantine :
    every [decide ((late 1).epoch ≠ ((parted bound).part 0).epoch), (quarSt.part 0).quar.isSome] = true := by decide +kernel

/-! ## Register access -/

theorem meets_RegisterAccess :
    every [
      acc bound (.fw 2) (R.MMU_ROOT 0) true 0x2000 && decide (blockOf (R.MMU_ROOT 0) = some (.mmu, R.MMU_ROOT 0 - R.mmuBase)),
      acc bound (.fw 2) R.CHR_BARRIER_CFG_SH false 7,
      decide (bound.regCheck (.fw 2) (R.MMU_ROOT 0) 8 (some 1) = 0 ∧ bound.regHeld (R.MMU_ROOT 0) = false ∧
        bound.unitAbsent .mmu (R.MMU_ROOT 0 - R.mmuBase) = false),
      (match regInfo bound.variant (R.MMU_ROOT 0) with
        | some i => decide (i.wide = true) && decide (1#64 &&& ~~~ BitVec.ofNat 64 i.mask ≠ 0)
        | none => false),
      let s := fx [(1, BitVec.ofNat 64 (R.SEQ_PC 0 0)), (2, BitVec.ofNat 64 (R.SEQ_STATE 0 0)), (3, 0x100)];
      let f := ib [(51, 7), (46, 1), (44, 2)];
      decide (rdy s 0 [fRD f, fRA f] = true ∧ bits f 43 32 = 0 ∧ 4 ≤ fSize f ∧ (s.atIssue 0).effAddr 0 0 f = R.SEQ_PC 0 0 ∧
        R.SEQ_PC 0 0 % 4 = 0 ∧ s.regCheck (.core 0) (R.SEQ_PC 0 0) 4 none = 0 ∧ s.regHeld (R.SEQ_PC 0 0) = false ∧
        (regInfo s.variant (R.SEQ_PC 0 0)).map (fun i => i.wide) = some false ∧ wideAt s.variant (R.SEQ_PC 0 0 - 4) = false),
      let s := fx [(1, BitVec.ofNat 64 (R.SEQ_PC 0 0)), (2, BitVec.ofNat 64 (R.SEQ_STATE 0 0)), (3, 0x100)];
      let f := ib [(51, 3), (46, 2), (44, 2)];
      decide (rdy s 0 [fRD f, fRA f] = true ∧ bits f 43 32 = 0 ∧ (s.atIssue 0).effAddr 0 0 f = R.SEQ_STATE 0 0 ∧
        R.SEQ_STATE 0 0 % 4 = 0) && acc s (.core 0) (R.SEQ_STATE 0 0) false 0x100] = true := by decide +kernel

/-! ## Transfers and put groups -/

/-- s1 an address, s2 a row offset, s3 a length, s4 a control word. -/
def tx (a : Word64) (len ctl : Word64) : State := fxw [(1, a), (2, 0x40), (3, len), (4, ctl)]
def xferF (rg : Nat) : IBits := ib [(51, 1), (46, 2), (41, 3), (36, rg)]

/-- Link 0, of port 0, UP with an MX3 partner. -/
def upSt (s : State) : State :=
  (s.setReg (R.LNK_PORT 0) 0x11800).setReg (R.LNK_STAT 0) 0x3C00000000000000

/-- A transfer of core 0 in its DMA queue. -/
def dEntry (kind : DmaKind) (remote : Nat) (pieces : List (Nat × Nat)) (resp : Option Status) : DmaEntry :=
  ⟨kind, 0, 0, 7, 0x10, remote, pieces, 0x40, 8, 0, false, true, 64, 0, 0, 1000000, 0, resp, []⟩
def dqSt (e : DmaEntry) : State := { (fxw []).modCore 0 (fun x => { x with dq := [e] }) with ns := 1000000000 }

theorem meets_Transfers :
    every [
      let s := tx 0x10000400080 8 0;
      let f := xferF 0;
      decide (rdy s 0 [1, 2, 3, 0] = true ∧ bits (s.runReg 0 2) 63 22 = 0 ∧ 0x40 + 8 ≤ padSize ∧ s.owns 0 0 0x40 8 = true ∧
        xferReserved f true = false ∧ xferReserved f false = false ∧ (s.atIssue 0).flagBad 0 0 f = false ∧
        (s.atIssue 0).coreTranslate 0 0 0x80 8 false = (s, [(0x80, 8)], 0) ∧ s.coreAccess 0 0 [(0x80, 8)] = 0 ∧
        (s.core 0).dq.length < 16 ∧ (s.atIssue 0).dmaFull 0 = false ∧ rdClean s 0 0 0x40 8 = true ∧
        (s.atIssue 0).otherWindow 0 0 0x80 = false),
      let s := (tx 0x10000400080 8 0x3005).setReg (R.TOP_SLOT_MAP 1) 0x40000001;
      decide ((s.atIssue 0).otherWindow 0 0 0x10000400080 = true ∧ bits (s.runReg 0 4) 63 16 = 0 ∧ bits (s.runReg 0 4) 11 8 = 0 ∧
        (s.atIssue 0).coreTranslate 0 0 0x10000400080 8 true = (s, [(0x10000400080, 8)], 0) ∧
        s.coreAccess 0 0 [(0x10000400080, 8)] = 0 ∧ s.homeOf 0 [(0x10000400080, 8)] = .window 1),
      let s := tx 0x400080 8 0x10003005;
      decide (rdy s 0 [1, 2, 3, 4] = true ∧ bits (s.runReg 0 1) 49 32 = 0 ∧ bits (s.runReg 0 4) 63 48 = 0 ∧ rdClean (s.atIssue 0) 0 0 0x40 8 = true ∧
        bits (s.runReg 0 4) 27 16 = 0 ∧ bits (s.runReg 0 4) 11 8 = 0 ∧ bits (s.runReg 0 1) 21 0 + 8 ≤ padSize ∧
        (s.atIssue 0).routable 0 = true),
      let e := dEntry .put 0x400080 [] (some 0);
      let s := dqSt e;
      decide ((s.core 0).dq.find? (fun e => e.seq == 7) = some e ∧ s.tripped = false ∧ e.remote / 0x4000000000000 = s.chipId ∧
        s.answered 0 e = true ∧ e.status = 0 ∧ s.partOf 0 0 = none ∧ s.farPut e = false),
      let e := dEntry .put 0x4000000400080 [] none;
      let s : State := { upSt (dqSt e) with chorus := 0x1312D0000 };
      decide (e.remote / 0x4000000000000 ≠ s.chipId ∧ s.answered 0 e = true ∧ s.farPut e = true ∧
        s.net.any (answersXfer (s.self 0 e.ctx) e.seq) = false ∧ s.olderWay (e.remote / 0x4000000000000) = false ∧
        s.tooOld 0 s.stamp = false ∧ s.tooOld 0 0 = true ∧ e.issued + e.tmo ≤ s.ns),
      let e := dEntry .dput 0 [(0x40, 8)] none;
      let s : State := { dqSt e with hbm := { HbmState.reset with wrote := [(1, true)] } };
      decide ((s.core 0).dq.find? (fun e => e.seq == 7) = some e ∧ s.homeOf 0 e.pieces = .hbm ∧ e.resp = none ∧
        s.pieceStacks e.pieces = false ∧ (s.rowRead 0 0 0x40 8).2 = (carried (s.winBytes 0 0x40 8), 0) ∧
        ((s.rowRead 0 0 0x40 8).1.piecesWrite (carried (s.winBytes 0 0x40 8)) [(0x40, 8)]).2 = 0),
      let e := dEntry .dget 0 [(0x40, 8)] none;
      let s : State := { dqSt e with hbm := { HbmState.reset with wrote := [(1, true)], bytes := [(0x41, 9)] } };
      decide ((s.core 0).dq.find? (fun e => e.seq == 7) = some e ∧ s.homeOf 0 e.pieces = .hbm ∧ e.resp = none ∧
        s.pieceStacks e.pieces = false ∧ (s.dgetRead 0 e.ctx e.nc e.pieces).2 = ([some 0, some 9, some 0, some 0, some 0, some 0, some 0, some (0 : Byte)], (0 : Status)) ∧
        s.owns 0 0 0x40 8 = true ∧ s.phys 0 = some 0 ∧
        (wordsOf 0x40 8).all (fun w => (s.pos 0).pad.resolve w == none) = true)] = true := by decide +kernel

/-- Grant 5, generation 3, of units 0 and 1 of core 0 to core 1, and a waiting remote COUNT of core 1. -/
def grantSt (used : Bool) : State :=
  ((fxw []).modCore 0 (fun x => { x with grants := [(5, ⟨used, 3, some ⟨0, 1, 0⟩, false, 0, 2, 0, 0, none⟩)] })).modCtx 1 0
    (fun t => { t with busy := [7], counts := [⟨4, 0x10, 0, 7⟩] })
def wMsg : WriteMsg := ⟨⟨0, 1, 0⟩, none, false, 3, 5, 0x3E, [some 1, none, some 3], 4, none⟩

/-- Without a grant for the message no byte lands; with one its write lands at position 0 (R194). -/
theorem test_remote_write_needs_grant :
    aft (exec (.remoteWrite 0 wMsg) (grantSt false)) (fun t => t.posns == (grantSt false).posns) = true ∧
    aft (exec (.remoteWrite 0 wMsg) (grantSt true)) (fun t => (t.pos 0).pad.byte 0x40 == 3) = true := by decide +kernel

theorem meets_RemoteAccesses :
    every [
      let s := grantSt true;
      decide (s.shut 0 = false ∧ s.phys 0 = some 0 ∧ s.inboundAccess 0 0x3E 3 none = 0 ∧
        (s.core 0).grantOk 5 3 wMsg.src false 0x3E 3 = true ∧ (∀ w ∈ wordsOf 0x3E 3, (s.pos 0).pad.resolve w = none) ∧
        s.inboundAccess 0 0x40 8 none = 0 ∧ rdClean s 0 0 0x40 8 = true ∧ (0 : BitVec 14).toNat = s.chipId ∧
        7 ∈ (s.ctx 1 0).busy ∧ ((s.ctx 1 0).counts.find? (fun w => w.seq == 4)).isSome),
      let s := fxw [];
      decide (s.memAccess (.fw 0) (physAddr 0 0x40) 3 = 0 ∧ s.regionOf (physAddr 0 0x40) 3 = some (.phys 0) ∧
        winOff (physAddr 0 0x40) = 0x40 ∧ (wordsOf 0x40 3).all (fun w => (s.pos 0).pad.resolve w == none) = true),
      let s := grantSt false; decide ((s.core 0).grantOk 5 3 wMsg.src false 0x3E 3 = false)] = true := by decide +kernel

def putW (final expect : Nat) : PutMsg :=
  ⟨⟨0, 1, 0⟩, none, 0, 0x40, BitVec.ofNat 64 (64 * 2 ^ 52 + 2 * 2 ^ 32 + expect * 2 ^ 16 + 3 * 2 ^ 12 + 5), decide (final = 1),
    [some 1, some 2], 0, 4⟩

/-- `grantSt` with group 2 of context 0 OPEN: `n` landed, `f` failed, a FINAL held for `x` members. -/
def groupSt (n f : Nat) (x : Option Nat) : State :=
  { (grantSt true).modCtx 0 0 (fun t => { t with groups :=
      [⟨2, 0, .opened, n, f, x.map (fun e => ⟨⟨0, 1, 0⟩, e, 64, true, 5, 3, false, 9⟩), 0, 0, 1000000⟩] }) with ns := 1000000000 }

theorem meets_PutGroups :
    every [
      [0, 1].all (fun final => let m := putW final (3 * final);
        let s := grantSt true;
        decide (tgt s m.job m.core.toNat = some (none, 0) ∧ s.shut 0 = false ∧ s.phys 0 = some 0 ∧
          s.putCtx 0 m.off.toNat = some 0 ∧ s.putChecks 0 0 none m = none ∧ s.bitOf (R.SP_PG_CFG 0 0) 31 = false ∧
          ∀ w ∈ wordsOf 0x40 2, (s.pos 0).pad.resolve w = none)),
      [(2, 0, some 2), (1, 1, some 2), (1, 0, none)].all (fun x => let s := groupSt x.1 x.2.1 x.2.2;
        ((s.ctx 0 0).group 2).isSome),
      let s := groupSt 1 0 none;
      (match (s.ctx 0 0).group 2 with
        | some e => decide (e.ggen < 16 ∧ e.st = .opened ∧ e.due = false ∧ e.openedAt + e.hold ≤ s.ns)
        | none => false)] = true := by decide +kernel

/-! ## Chorus -/

/-- A child of port 0 with backup port 1, in discipline state `n`. -/
def chrSt (n : Nat) (backup : Bool) : State :=
  let s := ((bound.setReg R.CHR_CFG (BitVec.ofNat 64 (3 * 2 ^ 30 + 0 * 2 ^ 28 + 2 ^ 27 + 2 ^ 25 + 2 ^ 21))).setFld R.CHR_STATE 31 29 n)
  { s with chr := { s.chr with backup := backup }, ns := 2000000000 }

/-- An edge gained by the trim, and one lost (R257). -/
theorem test_trim_edges :
    aft (step { bound with chr := { bound.chr with trim := 5, phase := 2 ^ 32 - 5 } }) (fun t =>
      decide (t.chorus = 0x200 ∧ t.chr.phase = 0)) = true ∧
    aft (step { bound with chr := { bound.chr with trim := -5, phase := 5 - 2 ^ 32 } }) (fun t =>
      decide (t.chorus = 0 ∧ t.chr.phase = 0 ∧ t.ns = 1)) = true := by decide +kernel

theorem meets_EmptyQueueTicks_trim :
    every [decide (bound.pending = [] ∧ (bound.die 0).phase = 0 ∧ (bound.die 1).phase = 0),
      let s := { bound with chr := { bound.chr with trim := 5, phase := 2 ^ 32 - 5 } };
      decide (2 ^ 32 ≤ s.chr.phase + s.chr.trim ∧ s.chr.slew = 0)] = true := by decide +kernel

theorem meets_Discipline :
    every [
      decide ((chrSt 0 false).fld R.CHR_CFG 31 30 = 3 ∧ (beacon 2 0).state = 2 ∧ (0 : Fin 4).val = (chrSt 0 false).fld R.CHR_CFG 29 28 ∧
        (chrSt 0 false).chrState = 0),
      decide ((chrSt 3 false).chrState = 3 ∧ (chrSt 3 false).bitOf R.CHR_CFG 27 = true ∧
        (1 : Fin 4).val = (chrSt 3 false).fld R.CHR_CFG 26 25 ∧ 1 ≠ (chrSt 3 false).fld R.CHR_CFG 29 28),
      decide ((0 : Fin 4).val = (chrSt 2 false).parentPort ∧ (chrSt 2 false).chrState = 2 ∧ (beacon 2 0).resent = false ∧
        { beacon 2 0 with echo := some (0, 0x100) }.echo.isSome),
      decide ((beacon 3 0).state ≠ 2 ∧ (0 : Fin 4).val = (chrSt 1 false).parentPort ∧ (chrSt 1 false).chrState = 1),
      decide ((upSt (chrSt 2 false)).beaconLink 0 = some 0 ∧ (upSt (chrSt 2 false)).beaconPort 0 = true ∧
        (upSt (chrSt 2 false)).chr.sent = []),
      decide ((chrSt 2 false).chr.lastBcn + 16000 ≤ (chrSt 2 false).ns ∧ (chrSt 3 false).chr.holdAt + 1000000000 ≤ (chrSt 3 false).ns ∧
        (chrSt 3 false).bitOf R.TOP_INPUT_STAT 31 = false),
      [(2, 0x1400), (2, 0x1401), (1, 0x7FFFFF)].all (fun p => let s := (chrSt p.1 false).setFld R.CHR_CFG 31 30 2;
        decide (s.fld R.CHR_CFG 31 30 = 2 ∧ s.chrState = p.1 ∧ s.chr.lastSync = none ∧
          syncOffset (wrap 72 ((p.2 : Int) - (s.fld R.TOP_SYNC_CFG 23 0 : Nat))) = p.2 ∧
          (p.1 = 1 → s.fld R.CHR_CFG 15 0 * 256 < p.2)))] = true := by decide +kernel

/-- The scheduler core in RUN. -/
def fwUp (s : State) : State := (s.setFld (R.FW_STAT 2) 63 61 2).setFld (R.FW_STAT 0) 63 61 2

/-- Firmware up, with a COMMIT of scope PWR 100 ns ahead pending, at Chorus `now`. -/
def commitSt (now : Nat) : State :=
  { fwUp bound with chorus := BitVec.ofNat 72 now,
                    chr := { ChrState.reset with commit := some ⟨0x6400, 0b100000, false, false, 0, none, 0⟩ } }
def commitArgs : List Byte := leBytes 8 100 ++ leBytes 1 0 ++ leBytes 1 0 ++ leBytes 2 0 ++ leBytes 4 0b10000

theorem meets_Commits :
    every [
      decide ((fwUp bound).commitChecks commitArgs = none ∧
        (fwUp bound).chorus.toNat < leAt commitArgs 0 8 * 256 + leAt commitArgs 8 1),
      decide ((commitSt 0x6400).chr.commit.isSome = true ∧ (commitSt 0x63FF).chorus.toNat < 0x6400)] = true := by decide +kernel

/-- Both compute dies' rails at 1.1 V and their largest currents in the shadows, and the power core in RUN. -/
def railSt : State := [0, 1].foldl (fun s c => s.setReg (R.PWR_RAIL_SH c) 0x44CFFFFFFFF) ((fwUp bound).setFld (R.FW_STAT 1) 63 61 2)

/-- What the PWR checks read. -/
def pwrFields (v : State) : List Nat :=
  [v.fld (R.PWR_RAIL 0) 47 32, v.fld (R.PWR_RAIL 0) 31 16, v.fld (R.PWR_RAIL 0) 15 0, v.fld (R.PWR_RAIL 1) 47 32,
   v.fld (R.PWR_RAIL 1) 31 16, v.fld (R.PWR_RAIL 1) 15 0, v.fld R.PWR_LIMIT 31 16, v.fld R.PWR_LIMIT 7 0,
   v.fld R.PWR_THERM 31 24, v.fld R.PWR_THERM 23 16, v.fld R.PWR_THERM 15 8, v.fld R.PWR_THERM 7 0, v.fld R.PWR_PLANT 31 16,
   v.fld R.PWR_PLANT 15 8, v.fld R.PWR_PLANT 7 0, tdp v.variant, v.variant.slots]

set_option maxRecDepth 8000 in
theorem pwrChecks_none {v : State}
    (h : pwrFields v = [1100, 65535, 65535, 1100, 65535, 65535, 1000, 10, 95, 105, 85, 45, 240, 50, 10, 2200, 25]) :
    firstOf (pwrChecks v) = none := by
  simp only [pwrFields, List.cons.injEq, and_true] at h
  obtain ⟨h1, h2, h3, h4, h5, h6, h7, h8, h9, h10, h11, h12, h13, h14, h15, h16, h17⟩ := h
  have a := Config.iarr.isLt
  have b := Config.isw.isLt
  have r : List.range 2 = [0, 1] := rfl
  simp only [pwrChecks, r, List.flatMap_cons, List.flatMap_nil, List.cons_append, List.nil_append, List.append_nil, firstOf,
    h1, h2, h3, h4, h5, h6, h7, h8, h9, h10, h11, h12, h13, h14, h15, h16, h17, Bool.or_eq_true, decide_eq_true_eq]
  repeat rw [if_neg (by omega)]
def pwrArgs : List Byte :=
  leBytes 8 (1000000 * 256 / 256) ++ leBytes 1 (1000000 * 256) ++ leBytes 1 1 ++ leBytes 2 0 ++ leBytes 4 0b100000

/-- The immediate commit of the PWR scope passes its checks on `railSt`, whatever the dies' currents are. -/
theorem meets_Commits_pwr : railSt.sys.sb.waits = false ∧ railSt.procState 1 = 2 ∧ railSt.fwReady = true ∧
    railSt.commitChecks pwrArgs = none := by
  refine ⟨by decide +kernel, by decide +kernel, by decide +kernel, ?_⟩
  have h : railSt.commitCheck 0b100000 [] = none := by
    have h : railSt.commitCheck 0b100000 [] = firstOf (pwrChecks (railSt.copyShadows 0b100000)) := rfl
    rw [h, pwrChecks_none (by decide +kernel)]
  have h1 : leAt pwrArgs 9 1 = 1 := by decide +kernel
  have h2 : setIn pwrArgs 0xA 2 = false := by decide +kernel
  have h3 : leAt pwrArgs 0xC 4 = 0b100000 := by decide +kernel
  have h4 : railSt.variant.lf = true := by decide +kernel
  have h5 : railSt.chr.commit.isSome = false := by decide +kernel
  simp [State.commitChecks, h, h1, h2, h3, h4, h5]

/-! ## Links -/

/-- Link 0 on port 0, direction +x, 2 of its links held by others, in STATE `st`. -/
def linkSt (st : Nat) (f : LinkRec → LinkRec) : State :=
  { (((((bound.setFld R.CHR_CFG 29 28 1).setReg (R.LNK_PORT 0) 0x13800).setReg (R.LNK_STAT 0) (BitVec.ofNat 64 (st * 2 ^ 60 + 3 * 2 ^ 58 + 2 * 2 ^ 56 +
    1 * 2 ^ 34))).setReg R.LNK_TOPO 0).modLink 0 f) with ns := 200000000 }

/-- The write of LNK_CTL_0 that an operation is. -/
def ctlW (op : Nat) : Word64 :=
  BitVec.ofNat 64 (op * 2 ^ 29 + bound.fld (R.LNK_CTL 0) 11 8 * 2 ^ 8 + bound.fld (R.LNK_CTL 0) 1 0)

def hello : Hello := ⟨true, 1, 0, 3, 3⟩

theorem meets_LinkTraining :
    every [
      let s := linkSt 1 id; decide (s.variant.link 0 = true ∧ (s.link 0).untested = false ∧ s.linkState 0 = 1),
      let s := linkSt 2 (fun r => { r with phase := 1 });
      decide (s.linkState 0 = 2 ∧ (s.link 0).phase = 1 ∧ s.linkPort 0 = some 0 ∧ s.portPartner 0 = none ∧
        min hello.gen.toNat (s.fld (R.LNK_PORT 0) 12 11) ≠ 0 ∧ (s.link 0).since + 1000000 ≤ s.ns),
      [(1, 2), (2, 6), (3, 3), (4, 4), (5, 5)].all (fun x => let s := linkSt 2 (fun r => { r with phase := x.1, pass := 3 });
        decide (s.linkState 0 = 2 ∧ (s.link 0).phase = x.1 ∧ (s.link 0).resume = false ∧ (s.link 0).since + 10000000 ≤ s.ns ∧
          (s.link 0).pass &&& hello.lanes.toNat ≠ 0)),
      let s := linkSt 2 (fun r => { r with phase := 6, silence := some 0, retryAt := 5 });
      decide (s.linkState 0 = 2 ∧ (s.link 0).phase = 6 ∧ (s.linkPort 0).isSome = true ∧ s.pending.any (isHello 0) = false ∧ (s.link 0).retryAt ≤ s.ns ∧ (s.link 0).silence = some 0 ∧
        0 + 100000000 ≤ s.ns),
      [0, 3].all (fun up => let s := (((linkSt 2 (fun r => { r with phase := 5, pass := 3 })).setReg (R.LNK_PORT 0) 0x33800).setReg
          (R.LNK_STAT 1) (BitVec.ofNat 64 (up * 2 ^ 60 + 3 * 2 ^ 58 + 5 * 2 ^ 34)));
        decide ((s.link 0).phase = 5 ∧ (s.link 0).since + 100000 ≤ s.ns ∧ s.linkPort 0 = some 0 ∧
          (2 : BitVec 2).toNat &&& (s.link 0).pass ≠ 0 ∧
          s.portPartner 0 = (if up = 3 then some (5, 3) else none) ∧ (5, 3) ≠ (s.fld (R.LNK_STAT 0) 47 34, s.fld (R.LNK_STAT 0) 59 58))),
      acc (linkSt 0 id) (.fw 2) (R.LNK_CTL 0) false (ctlW 1) && decide (((linkSt 0 id).linkPort 0).isSome = true),
      acc (linkSt 3 id) (.fw 2) (R.LNK_CTL 0) false (ctlW 2) && acc (linkSt 3 id) (.fw 2) (R.LNK_CTL 0) false (ctlW 3)] = true := by
  decide +kernel

def npkt (dst : BitVec 14) (inPort : Option (Fin 4)) : NetPkt := ⟨0, dst, .put (putMsg 4) dst.toNat, inPort, false⟩

theorem meets_LinksRun :
    every [
      let s := linkSt 3 id;
      decide (s.linkState 0 = 3 ∧ s.linkPort 0 = some 0 ∧ (s.port 0).wait = [] ∧ (s.port 0).again = [] ∧ (s.link 0).draining = false ∧
        s.upMask 0 = 3 ∧ (s.link 0).unacked = [] ∧ s.chorusNeeds 0 = false ∧ (s.port 0).rx = 0),
      let s := linkSt 3 (fun r => { r with unacked := [(5, some (npkt 1 none)), (6, none)], replays := 8 });
      decide (8 ≤ (s.link 0).replays ∧ (s.link 0).unacked ≠ []),
      acc (linkSt 3 id) (.fw 1) (R.LNK_CTL 0) false (ctlW 4) && acc (linkSt 6 id) (.fw 1) (R.LNK_CTL 0) false (ctlW 5),
      decide ((linkSt 6 id).linkState 0 = 6 ∧ ((linkSt 6 id).linkPort 0).isSome = true ∧ (linkSt 5 id).linkState 0 = 5 ∧ (linkSt 4 id).linkState 0 = 4)] = true := by
  decide +kernel

/-- `linkSt 3` with one dimension of four chips, and compatibility window 2 of port 0 at page 7 for core 0. -/
def routeSt (f : LinkRec → LinkRec) : State :=
  (((linkSt 3 f).setReg R.LNK_TOPO (BitVec.ofNat 64 (3 * 2 ^ 42))).setReg (R.LNK_CWIN_A 0 2) 0x8000000000000005).setReg
    (R.LNK_CWIN_B 0 2) (BitVec.ofNat 64 (7 * 2 ^ 22 + 64 * 2 ^ 4 + 15))

theorem meets_Routing :
    every [
      let s := routeSt id;
      decide ((npkt 1 none).dst.toNat ≠ s.chipId ∧ s.outPort 1 = some 0 ∧ s.hop (npkt 1 none) = some (0, (npkt 1 none).pkt) ∧ s.openLinks 0 0 = [0] ∧ onRoute (npkt 0 none).pkt = false ∧ (s.port 0).wait = [] ∧
        s.portPartner 0 = some (1, 3) ∧ s.cwin 0 (7 * 0x40_0000 + 8) = some 2 ∧
        (7 * 0x40_0000 + 8) % 0x40_0000 + 512 ≤ padSize ∧ Sparse.get (fun _ => 0) (s.port 0).mapped 2 < 4095 ∧
        s.cwin 0 (8 * 0x40_0000) = none ∧ s.bitOf (R.LNK_CWIN_A 0 2) 63 = true ∧ (0 : BitVec 14).toNat = s.chipId),
      let s := routeSt (fun r => { r with draining := true }); decide (s.openLinks 0 0 = [] ∧ s.openLinks 0 1 = []),
      let s := [0, 1, 2, 3].foldl (fun s p => s.setReg (R.LNK_PORT p) 0) (routeSt id); decide (s.outPort 1 = none ∧ s.hop (npkt 1 none) = none),
      let s := ((routeSt id).setFld (R.LNK_STAT 0) 63 60 4).modPort 0 (fun x => { x with wait := [(npkt 1 none, 0)] });
      decide ((s.port 0).wait = [(npkt 1 none, 0)] ∧ (s.port 0).again = [] ∧ s.upLinks 0 = [] ∧ 0 + s.holdNs 0 ≤ s.ns),
      let s := ((routeSt id).setFld (R.LNK_STAT 0) 63 60 4).modPort 0 (fun x => { x with again := [((7, some (npkt 1 none)), 0)] });
      decide ((s.port 0).again = [((7, some (npkt 1 none)), 0)] ∧ s.upLinks 0 = [] ∧ 0 + s.holdNs 0 ≤ s.ns),
      let s : State := { bound with sys := { bound.sys with bridges := [(2, 16)] } };
      decide (16 ≤ s.bridgeFails 2 ∧ 2 ∉ s.sys.deadBr)] = true := by decide +kernel

/-! ## The Leapfrog engine -/

/-- A Leapfrog descriptor. -/
def lfDesc (ctl size src dst start : Nat) : List Byte :=
  leBytes 8 ctl ++ leBytes 8 size ++ leBytes 8 src ++ leBytes 8 dst ++ List.replicate 24 0 ++ leBytes 8 start

/-- A SHIFT of 64 bytes of FP32 at 0x30000 to NEXT in group 2, which waits for the counter at 0x40000 to reach `n`. -/
def shiftDesc (n : Nat) : List Byte := lfDesc (2 ^ 60 + 2 * 2 ^ 54 + 2 ^ 52) 64 0x30000 0 (n * 2 ^ 48 + (if n = 0 then 0 else 0x40000))

/-- Bytes placed in HBM. -/
def atHbm (a : Nat) (d : List Byte) : Sparse Byte :=
  ((List.range d.length).zip d).filterMap (fun x => if x.2 = 0 then none else some (a + x.1, x.2))

/-- Ring group 2 of chips 0, 1 and 2, all MX3, this one being rank 0, READY at epoch 3; its channel is channel 0 of
partition 0, enabled with 16 descriptors at 0x20000, the first of them `raw` and announced. -/
def lfSt (raw : List Byte) : State :=
  ((((({ parted bound with
    hbm := { HbmState.reset with
      bytes := [(0x10001, 0xC0), (0x10002, 1), (0x10003, 0xC0), (0x10004, 2), (0x10005, 0xC0)] ++ atHbm 0x20000 raw ++ [(0x40000, 5)],
      wrote := [(0x400, true), (0x800, true), (0xC00, true), (0x1000, true)] }
    ns := 2000000000 }.setReg
    (R.LF_GRP 2 0) (BitVec.ofNat 64 (2 ^ 62 + 2 * 2 ^ 42))).setReg (R.LF_GRP 2 3) 0x10000).setReg (R.LF_GSTAT 2)
    (BitVec.ofNat 64 (2 ^ 61 + 3 * 2 ^ 56 + 7))).setReg (R.LF_CH_CFG 0) 0x81000004).setReg (R.LF_CH_BASE 0) 0x20000).setReg
    (R.LF_CH_PTR 0) 0x10000

/-- `lfSt` with `x` the work of channel 0. -/
def runSt (x : LfRun) : State := (lfSt (shiftDesc 0)).setRun 0 (some x)

theorem meets_LeapfrogChannels :
    every [
      acc (lfSt []) (.host 0) (R.LF_CH_DB 0) false 3 && decide ((lfSt []).bitOf (R.LF_CH_CFG 0) 31 = true ∧
        3 < (lfSt []).lfSize 0 ∧ (1 + 16 - 0) % 16 + (3 + 16 - 1) % 16 ≤ 15),
      acc (lfSt []) (.host 0) (R.LF_CH_DB 0) false 16,
      let s := (lfSt []).setLfState 0 3;
      acc s (.fw 2) (R.LF_CH_CTL 0) false 0x80000000 && decide (s.lfState 0 = 3),
      let s := (lfSt []).setFld (R.LF_CH_CFG 0) 31 31 0;
      acc s (.fw 2) (R.LF_CH_CFG 0) false 0x81000005 && decide (s.bitOf (R.LF_CH_CFG 0) 31 = false),
      acc (lfSt []) (.fw 2) (R.LF_CH_CFG 0) false 0x01000004 && decide ((lfSt []).bitOf (R.LF_CH_CFG 0) 31 = true)] = true := by
  decide +kernel

/-- No link is UP, so no hop faces an older partner. -/
theorem lfBridge_none {s : State} (h : ∀ p, s.portPartner p = none) (e : List Word64) (next : Bool) (chip : Nat) :
    s.lfBridge e next chip = none := by
  unfold State.lfBridge
  split
  · rfl
  · simp [h]

theorem portPartner_none {s : State} (h : (List.range 16).all (fun l => decide (s.linkState l ≠ 3)) = true) (p : Nat) :
    s.portPartner p = none := by
  simp only [List.all_eq_true, decide_eq_true_eq] at h
  have : s.upLinks p = [] := by
    unfold State.upLinks
    rw [List.filter_eq_nil_iff]
    intro l hl
    simp_all [State.linksOf]
  simp [State.portPartner, this]

/-- The work that `shiftDesc n` is, `started` or not, with halves `hs`. -/
def lfWork (n : Nat) (started : Bool) (hs : List LfHalf) : LfRun :=
  ⟨0, shiftDesc n, 0, started, 2, 3, 6, (lfSt []).entryOf 2, [], [(0x30000, 64)], [(0x30000, 64)], [], [], hs, 0, 0, 0, []⟩

/-- A half of 64 bytes toward NEXT, chip 1. -/
def lfHalf (send : Bool) (moved opened : Nat) (wins : List LfWin) : LfHalf :=
  ⟨send, true, 1, 1, 3, 64, true, moved, opened, wins, none, 0, false, [], [0], false, moved⟩

/-- Descriptors that pass, and that each of the checks 1 to 7 of R348 ends. -/
theorem meets_LeapfrogDescriptors :
    every [
      [shiftDesc 0, shiftDesc 6, lfDesc 0 64 0x30000 0 0, lfDesc (2 ^ 60 + 2 * 2 ^ 54 + 2 ^ 52) 64 0x900000 0 0,
        lfDesc (2 ^ 60 + 2 * 2 ^ 54 + 2 ^ 52 + 2 ^ 50 + 2 ^ 49) 64 0x30000 0x30020 0,
        lfDesc (2 ^ 60 + 3 * 2 ^ 54 + 2 ^ 52) 64 0x30000 0 0].all (fun d =>
        let s := lfSt d;
        decide (s.bitOf (R.LF_CH_CFG 0) 31 = true ∧ s.lfState 0 ≠ 3 ∧ s.lfRun 0 = none ∧ s.lfHead 0 ≠ s.lfTail 0 ∧
          (s.lfFetch 0 0).2 = (d, 0)) && (List.range 16).all (fun l => decide ((s.lfFetch 0 0).1.linkState l ≠ 3))),
      [(shiftDesc 0, (0x0000 : Status)), (shiftDesc 6, 0), (lfDesc 0 64 0x30000 0 0, 0x0D01)].all (fun d =>
        decide (lfStatic d.1 none = d.2)),
      [(shiftDesc 0, (0x0000 : Status)), (lfDesc (2 ^ 60 + 2 * 2 ^ 54 + 2 ^ 52) 64 0x900000 0 0, 0x0F05)].all (fun d =>
        decide (((lfSt d.1).lfTranslate 0 (lfRanges d.1 3)).2.2 = d.2)),
      decide (lfOverlap (lfDesc (2 ^ 60 + 2 * 2 ^ 54 + 2 ^ 52 + 2 ^ 50 + 2 ^ 49) 64 0x30000 0x30020 0) = true),
      [(shiftDesc 0, (0x0000 : Status)), (lfDesc (2 ^ 60 + 3 * 2 ^ 54 + 2 ^ 52) 64 0x30000 0 0, 0x0D07)].all (fun d =>
        decide ((lfSt d.1).lfGroupCheck 0 d.1 = d.2)),
      decide (lfOp (shiftDesc 0) = 1 ∧ lfRecv (shiftDesc 0) < 3 ∧ lfThresh (shiftDesc 6) ≠ 0 ∧ lfThresh (shiftDesc 0) = 0),
      [6, 5].all (fun n => let s := runSt (lfWork n false []);
        let x := s.translate .lf 3 0 (lfStart (shiftDesc n)) 8 false;
        decide (s.lfRun 0 = some (lfWork n false []) ∧ lfGroup (shiftDesc n) = 2 ∧ x.2 = ([(0x40000, 8)], 0) ∧
          x.1.piecesAccess .lf [(0x40000, 8)] = 0 ∧ (x.1.piecesRead [(0x40000, 8)]).2 = (carried (leBytes 8 5), 0) ∧
          (x.1.piecesRead [(0x40000, 8)]).1.lfGroupCheck 0 (shiftDesc n) = 0)),
      let r := lfWork 0 true [{ lfHalf true 64 64 [] with fin := true }];
      decide ((runSt r).lfRun 0 = some r ∧ r.halves.all (fun h => h.fin) = true ∧ lfWord r.raw 0x30 = 0)] = true := by
  decide +kernel

def lfM (k : LfMsgKind) : LfMsg := ⟨2, 3, 6, true, 1, k⟩

theorem meets_LeapfrogWindowsAndMessages :
    every [
      let h := lfHalf false 0 0 [];
      let r := lfWork 0 true [h];
      let s := runSt r;
      decide (s.lfRun 0 = some r ∧ r.halves.findIdx? (s.canOpen ·) = some 0 ∧ subPieces r.dst (halfBase r h + 0) (64 - 0) =
        [(0x30000, 64)] ∧ s.regionOf 0x30000 1 = some .hbm),
      let r := lfWork 0 true [lfHalf false 64 64 [⟨0, 64, 64, none, 0, 0⟩], lfHalf true 0 0 []];
      decide (lfOp r.raw = 1) && r.halves.all (fun h => h.wins.all (fun w => w.core.isNone)),
      let h := lfHalf false 0 0 [];
      decide (h.fin = false ∧ h.gen = 3 ∧ h.since + max 1 ((runSt (lfWork 0 true [h])).fld R.LF_CFG 55 40) * 1000000 ≤
        (runSt (lfWork 0 true [h])).ns),
      decide ((lfSt []).activeHalf (lfM (.ack 4)) = none ∧ (lfSt []).ringMode 2 = true ∧
        (lfSt []).fld (R.LF_GSTAT 2) 59 56 = 3),
      [LfMsgKind.ack 64, .fail true 0x0701, .window 0 64 64 64, .window 0 64 64 65].all (fun k =>
        decide ((runSt (lfWork 0 true [lfHalf true 0 0 []])).activeHalf (lfM k) = some (0, 0))),
      let r := lfWork 0 true [lfHalf true 0 0 []];
      let s := (runSt r).taken (.engine 0 [] (lfM (.window 0 64 64 64)));
      decide (halfKey r = 64 ∧ (s.lfRead 0 (subPieces r.src 0 (min 64 (64 - 0)))).2 = (List.replicate 64 (some 0), 0)),
      let r := lfWork 0 true [lfHalf false 0 64 [⟨0, 64, 0, none, 0, 0⟩]];
      let k := LfMsgKind.data 0 64 [some 1, none] 0;
      let s := (runSt r).taken (.engine 0 [] (lfM k));
      decide ((runSt r).activeHalf (lfM k) = some (0, 0) ∧ lfRed r.raw = false ∧ (s.piecesWrite [some 1, none] [(0x30000, 2)]).2 =
        0 ∧ subPieces r.dst 0 2 = [(0x30000, 2)])] = true := by
  decide +kernel

/-- Re-forming of `lfSt`'s group without rank 1 at 1000 ns. -/
def pendSt : State := ((lfSt []).setFld (R.LF_GSTAT 2) 63 61 3).setPend 2 (some ⟨1, 1000, (lfSt []).reformWords 2 1⟩)

/-- An N640 with firmware up, 2 by 2 chips, and barrier members 0 and 1 listed at 0x10000 of HBM. -/
def n640St : State :=
  { (fwUp (barSt 0)) with variant := .n640 }.setReg R.LNK_TOPO (BitVec.ofNat 64 (2 ^ 42 + 2 ^ 32))
def barrierArgs : List Byte := leBytes 1 2 ++ leBytes 1 2 ++ leBytes 2 1 ++ leBytes 4 0x50001 ++ leBytes 8 0x10000

theorem meets_LeapfrogGroups :
    every [
      let s := lfSt [];
      decide (s.ringMode 2 = true ∧ 2 ≤ entrySize (s.grp 2 0) ∧ s.grpState 2 = 1 ∧ (s.member 2 1).1 = 3 ∧ (s.member 2 2).1 = 3 ∧
        Sparse.get (fun _ => 0) s.sys.lf.beats 4 + 1000000 ≤ s.ns ∧ bit (s.grp 2 0) 56 = false ∧
        entryRank (s.grp 2 0) ≠ 1 ∧ s.pendOf 2 = none),
      let s := (lfSt []).setReg (R.LF_GRP 2 0) ((lfSt []).grp 2 0 ||| 2 ^ 56);
      decide (s.ringMode 2 = true ∧ 1 < entrySize (s.grp 2 0) ∧ bit (s.grp 2 0) 56 = true ∧ bit (s.grp 2 0) 57 = false ∧
        3 ≤ entrySize (s.grp 2 0) ∧ s.grpState 2 = 1 ∧ s.fld (R.LF_GSTAT 2) 59 56 = 3 ∧ entryRank (s.grp 2 0) ≠ 1 ∧
        s.pendOf 2 = none ∧ s.chorusNs < 1000 ∧ (s.setFld R.LF_CFG 63 63 1).bitOf R.LF_CFG 63 = true ∧
        (s.setFld R.LF_CFG 63 63 0).bitOf R.LF_CFG 63 = false ∧ (lfSt []).fld (R.LF_GSTAT 2) 59 56 ≠ 4),
      let s := { pendSt with chorus := BitVec.ofNat 72 (1000 * 256) };
      decide (s.pendOf 2 = some ⟨1, 1000, (lfSt []).reformWords 2 1⟩ ∧ 1000 ≤ s.chorusNs ∧
        ((lfSt []).reformWords 2 1).length = 4),
      let s := n640St;
      let ms := (List.range 2).map (s.lfMember 0x10000 0);
      decide (s.variant.lf = false ∧ leAt barrierArgs 0 1 = 2 ∧ leAt barrierArgs 1 1 = 2 ∧ leAt barrierArgs 2 2 = 1 ∧
        leAt barrierArgs 8 8 = 0x10000 ∧ 1 < s.xdim * s.ydim ∧ (ms.map (fun m => m.2)).Nodup ∧ (3, s.chipId) ∈ ms ∧
        s.fe.descs = []) && ms.all (fun m => decide (m.1 ≠ 0 ∧ m.2 < s.xdim * s.ydim))] = true := by decide +kernel
/-! ## HBM -/

/-- `f` as what HBM holds, firmware up. -/
def hbmSt (f : HbmState → HbmState) : State := { fwUp (parted bound) with hbm := f HbmState.reset, ns := 2000000000 }

def fillArgs : List Byte := leBytes 8 0 ++ leBytes 8 128 ++ leBytes 8 0x0102030405060708 ++ leBytes 8 0
def fillRun : FillRun := ⟨0, none, 0, 0, 128, [(0, 128)], 0x0102030405060708, false⟩

theorem meets_HbmAccessFillAndUpkeep :
    every [
      decide (0x40 + 8 ≤ (hbmSt id).variant.hbmEnd ∧ 0x40 + 64 ≤ (hbmSt id).variant.hbmEnd ∧ blocksOf 0x40 64 = [1] ∧
        (hbmSt id).stackOff (hbmMap .a800 64).1 = false),
      let s := hbmSt (fun h => { h with wrote := [(1, true)] });
      decide (blocksOf 0x44 2 = [1] ∧ s.hbmWrote 1 = true ∧ s.hbmErr 1 = .ok ∧ s.hbm.poison = [] ∧ s.hbm.fills = [] ∧
        (hbmSt id).hbmWrote 1 = false),
      decide (1 ∈ (hbmSt (fun h => { h with wb := [1], errs := [(1, .corr)] })).hbm.wb),
      let x := (hbmSt id).fillPieces 0 none 0 128;
      decide (leAt fillArgs 0x19 7 = 0 ∧ leAt fillArgs 0x18 1 = 0 ∧ leAt fillArgs 0 8 = 0 ∧ leAt fillArgs 8 8 = 128 ∧
        x.2 = ([(0, 128)], 0) ∧ x.1.hbm.runs = []),
      let s := hbmSt (fun h => { h with runs := [fillRun] });
      decide (s.hbm.runs.find? (fun r => r.func == 0) = some fillRun) && (List.range 8).all (fun x => !s.stackOff x),
      let s := (hbmSt id).setReg (bucketReg (.stack 0)) 0x30005;
      decide (s.stackOff 0 = false ∧ s.fld (bucketReg (.stack 0)) 15 0 ≠ 0 ∧ s.leakAt (.stack 0) + s.leakNs (.stack 0) ≤ s.ns),
      let s := (hbmSt id).setDstate 0x340 5;
      decide (s.hbmHeld 0x40 64 = true ∧ (hbmSt id).hbmHeld 0x40 64 = false),
      let s : State := { hbmSt id with fw := { (hbmSt id).fw with irqs := [.stack 0] } };
      decide (Bucket.stack 0 ∈ s.fw.irqs ∧ s.procState (s.bucketProc (.stack 0)) = 2),
      let s := (hbmSt (fun h => { h with wrote := [(0, true)] })).setBitOf (R.HBM_SCRUB_CFG 0) 31;
      decide (s.variant.stack 0 = true ∧ s.bitOf (R.HBM_SCRUB_CFG 0) 31 = true ∧ s.stackOff 0 = false ∧ s.stackDown 0 = false ∧ s.scrubDue 0 ≤ s.ns ∧
        hbmAddr s.variant 0 (s.scrubbed 0 % 12582912 * 64) / 64 = 0 ∧ s.hbmWrote 0 = true),
      [[], [(0, 32)]].all (fun u => let s := hbmSt (fun h => { h with cands := [0], spares := u });
        decide (s.hbm.cands.find? (fun row => (hbmMap s.variant (row * 2048)).1 == 0) = some 0 ∧ s.procState 0 = 2 ∧ s.stackOff 0 = false ∧
          (hbmMap s.variant 0).2 = 0))] = true := by decide +kernel

/-! ## Partitions -/

/-- Partition 0 with its extent the first 4 MiB, root 0x2000, and an INVAL of its first 2 MiB pending, `fenced`. -/
def inv (fenced : Bool) : Inval := ⟨0, 0x20_0000, some 0x2000, 5, fenced, 0, 0, 0, []⟩
def partSt (l : List Inval) : State :=
  (({ fwUp (parted bound) with chorus := 0x10000, ns := 2000000000 }.setReg (R.MMU_EXT 0 0 0) 0x8000000000000000).setReg
    (R.MMU_EXT 0 0 1) 0x200000).modPart 0 (fun p => { p with invals := l })
def invalArgs (swap : Nat) : List Byte := leBytes 8 0 ++ leBytes 8 0x20_0000 ++ leBytes 8 (swap * 0x2000) ++ leBytes 8 swap
/-- PARTITION_CREATE of partition 1, context 1, on cluster 0 for function 1: 2 groups, 1 program slot, 8 rows, 4 segments. -/
def createArgs : List Byte :=
  [1, 1, 2, 1, 8, 0, 4, 5, 9, 0, 1, 1] ++ leBytes 4 1 ++ leBytes 8 0x40_0000 ++ leBytes 8 100 ++ List.replicate 32 0 ++
    leBytes 8 0x40_0000 ++ leBytes 8 0x5F_FFFF
def createSt : State :=
  let s := fwUp ((State.reset.setReg (R.TOP_SLOT_MAP 0) 0x40000000).setReg (R.TOP_POS 0) 0x20000000)
  { s with fw := { s.fw with numVfs := 1 } }.setReg (R.TOP_CLUSTER 0) (BitVec.ofNat 64 (2 ^ 30))

theorem meets_HostAccess :
    every [
      let s := ringSt 1;
      decide (s.enabled 0 = true ∧ s.regCheck (.host 0) (R.FE_RING_CFG 0 0) 4 none = 0 ∧ s.regHeld (R.FE_RING_CFG 0 0) = false ∧
        0x2000 ≤ R.FE_RING_CFG 0 0 - R.feBase 0 + 0x2000 ∧ wideAt s.variant (R.FE_RING_CFG 0 0 - 4) = false ∧
        R.FE_RING_CFG 0 0 - R.feBase 0 + 0x2004 ≤ 0x4000 ∧
        (regInfo s.variant (R.FE_RING_CFG 0 0)).map (fun i => i.wide) = some false),
      [true, false].all (fun wr => let s := partSt [];
        let x := s.translate .fe 2 0 0x40 8 wr;
        decide (inBar 0 .bar2 0x40 8 = true ∧ s.partOfFunc 0 = some 0 ∧ x.2 = ([(0x40, 8)], 0) ∧
          x.1.piecesAccess .lf [(0x40, 8)] = 0 ∧ x.1.lfOwned 0 [(0x40, 8)] = true ∧ x.1.pieceCores [(0x40, 8)] = [] ∧
          x.1.pieceStacks [(0x40, 8)] = false ∧
          ((s.setDstate 0x340 5).translate .fe 2 0 0x40 8 wr).1.pieceStacks [(0x40, 8)] = true)),
      [true, false].all (fun wr => decide (((parted bound).translate .fe 2 0 0x90_0000 8 wr).2.2 = 0x0F05 ∧
        inBar 0 .bar2 0x90_0000 8 = true))] = true := by decide +kernel

theorem meets_PartitionCommands :
    every [
      let s := createSt;
      decide (s.createChecks createArgs = 0 ∧ (s.place (s.coresOf (clustersOf 1)) 1 2 8 1 4).isSome = true ∧
        leAt createArgs 0x0C 4 = 1),
      decide ((partSt []).bitOf (R.MMU_PCFG 0) 63 = true ∧ (partSt []).partBusy 0 = false ∧ leAt (List.replicate 16 0) 1 15 = 0)] = true := by
  decide +kernel

/-- `partSt` with its root at 0x2000, whose first entry is the table at 0x4000, whose first entry maps to address 0. -/
def walkSt : State :=
  let h : HbmState := { HbmState.reset with
    bytes := [(0x2000, 1), (0x2001, 0x40), (0x4000, 0x0A)], wrote := [(0x80, true), (0x100, true), (0x101, true)] }
  { (partSt []).setReg (R.MMU_ROOT 0) 0x2000 with hbm := h }

theorem meets_TranslationUpkeep :
    every [
      [0, 1].all (fun w => let s := partSt [];
        let a := invalArgs w;
        decide (s.partOfFunc 0 = some 0 ∧ leAt a 0x1A 6 = 0 ∧ leAt a 0x18 1 = w ∧ leAt a 0x19 1 = 0 ∧ leAt a 0x10 8 = w * 0x2000 ∧
          leAt a 0 8 = 0 ∧ leAt a 8 8 = 0x20_0000 ∧ s.inExtent 0 0x2000 0x2000 = true ∧ (s.part 0).invals.length < 4)),
      let s := partSt [inv false];
      decide ((s.part 0).invals.find? (fun e => !e.fenced) = some (inv false) ∧ (inv false).fence ≤ s.viewNs (some 0)),
      let s := partSt [inv true];
      decide ((s.part 0).invals.find? (fun e => e.fenced && !e.ranges.any s.rangeLives) = some (inv true)),
      decide (walkSt.bitOf (R.MMU_PCFG 0) 63 = true ∧ (walkSt.walk 0 0 false).2.status = 0 ∧
        (walkSt.walk 0 0x90_0000 false).2.status = 0x0F01 ∧ walkSt.fld (R.MMU_FAULT 0) 63 48 = 0)] = true := by decide +kernel

/-- Context 0 of core 0 runs in state `x`, and context 1 is in RUN. -/
def shareSt (x : Nat) (e : Option Nat) : State :=
  ((({ fxw [] with ns := 2000000000 }.setFld (R.SEQ_STATE 0 0) 2 0 x).setFld (R.SEQ_STATE 0 1) 2 0 1)).modCore 0
    (fun c => { c with sliceEnd := e })

theorem meets_ContextSharing :
    every [
      decide ((shareSt 1 none).ctxReady 0 1 = true ∧ ((shareSt 1 none).core 0).sliceEnd = none ∧
        ((shareSt 1 none).core 0).sliceAt + (shareSt 1 none).sliceNs 0 0 ≤ (shareSt 1 none).ns),
      let s := shareSt 1 (some 0);
      decide ((s.core 0).sliceEnd = some 0 ∧ 0 + s.fld R.FE_SCHED_CFG 7 0 * 1000000 ≤ s.ns ∧ s.atYield 0 = false),
      let s := shareSt 3 none;
      decide ((s.core 0).run = 0 ∧ s.atYield 0 = true ∧ (s.core 0).mq = [] ∧ (s.core 0).vq = [] ∧ s.ctxReady 0 0 = false ∧
        s.ctxReady 0 1 = true ∧ s.nextCtx 0 = some 1 ∧ (s.ctx 0 1).wait = none ∧ (s.ctx 0 1).bask = none)] = true := by decide +kernel
/-! ## Firmware -/

/-- Function 0's mailbox with posts `l`, a NOP in message slot 2 and `n` notices to read. -/
def mbxSt (l : List Word64) (n : Nat) : State :=
  ((fwUp bound).setFld (R.MBX_NR_TAIL 0) 4 0 n).modFn 0 (fun x => { x with posts := l, page := [(0x480, 1), (0x483, 1)] })

theorem meets_Mailboxes :
    every [
      [([] : List Word64), [1, 2, 3, 4]].all (fun l => decide ((mbxSt l 0).enabled 0 = true ∧ ((mbxSt l 0).fn 0).posts = l)),
      [(0x5480 : Word64), 0x5400, 0x5401].all (fun p =>
        decide (((mbxSt [p] 0).fn 0).posts = [p] ∧ (mbxSt [p] 0).nextTake = some 0)),
      decide ((mbxSt [] 0).msgStatus 0 2 = 0 ∧ (mbxSt [] 0).msgStatus 0 0 ≠ 0 ∧
        (List.range 16).all (fun i => decide (0x5401 ≠ 0x5400 + 64 * i)) = true),
      decide (bits (1 : BitVec 32) 31 5 = 0 ∧ (bits (1 : BitVec 32) 4 0 + 32 - (mbxSt [] 2).fld (R.MBX_NR_HEAD 0) 4 0) % 32 ≤
        (mbxSt [] 2).nrCount 0 ∧ ((mbxSt [] 2).fn 0).held = [] ∧ ((mbxSt [] 2).fn 0).lost = 0 ∧
        ¬ (bits (3 : BitVec 32) 4 0 + 32 - (mbxSt [] 2).fld (R.MBX_NR_HEAD 0) 4 0) % 32 ≤ (mbxSt [] 2).nrCount 0)] = true := by
  decide +kernel

/-- Command `code` with `args`, taken from message slot 2 of function 0. -/
def cmd2 : Cmd := ⟨0, some 2, 9, []⟩
def cmdSt (code : Nat) (args : List Byte) (f : FwState → FwState) : State :=
  { fwUp bound with fw := f { (fwUp bound).fw with journal := [⟨0, 2, 9, code, false, false, args⟩] } }

theorem commands_slot {s : State} {code : Nat} {args : List Byte} (hr : s.fwReady = true)
    (h : s.fw.journal = [⟨0, 2, 9, code, false, false, args⟩]) : s.commands code cmd2 args :=
  ⟨hr, ⟨0, 2, 9, code, false, false, args⟩, by simp [h, cmd2], rfl⟩

theorem commands_cmdSt (args : List Byte) : (cmdSt 0x62 args id).commands 0x62 cmd2 args := by
  have r : (fwUp bound).fwReady = true := by decide +kernel
  have r2 (f : FwState) (w : State) : ({ w with fw := f } : State).fwReady = w.fwReady := rfl
  exact commands_slot ((r2 _ _).trans r) rfl

/-- Every command that firmware issues itself has its own arguments. -/
theorem commands_own (s : State) (code : Nat) (a : List Byte) : s.commands code (own a) a := rfl

def logArgs : List Byte := leBytes 4 0 ++ leBytes 4 2 ++ leBytes 8 0x1000
def traceArgs : List Byte := leBytes 2 3 ++ leBytes 2 0x3FFF ++ [1, 0, 0, 0]
def dumpArgs (len : Nat) : List Byte := leBytes 8 64 ++ leBytes 4 len ++ leBytes 4 0 ++ leBytes 8 0x2000
def dumped (f : FwState) : FwState := { f with dump := ⟨1, 5, false, false, 0, 256, false, 0, [], []⟩ }

theorem meets_FirmwareCommands :
    every [
      decide (1 ≤ leAt logArgs 4 4 ∧ leAt logArgs 4 4 ≤ 16384 ∧ leAt logArgs 8 8 % 64 = 0),
      decide (leAt traceArgs 5 3 = 0 ∧ leAt traceArgs 0 2 ≤ leAt traceArgs 2 2 ∧ leAt traceArgs 2 2 ≤ 0x3FFF ∧ leAt traceArgs 4 1 ≤ 1),
      [64, 192].all (fun n => let a := dumpArgs n;
        decide (leAt a 0xC 4 = 0 ∧ leAt a 0 8 % 64 = 0 ∧ leAt a 8 4 % 64 = 0 ∧ 64 ≤ leAt a 8 4 ∧ leAt a 8 4 ≤ 2 ^ 24 ∧
          leAt a 0x10 8 % 64 = 0 ∧ (cmdSt 0x61 a dumped).fw.dump.kind ≠ 0 ∧
          leAt a 0 8 + leAt a 8 4 ≤ (cmdSt 0x61 a dumped).fw.dump.len)),
      decide (((fwUp bound).mbox 1).length < 8 ∧
        ¬ ({ fwUp bound with fw := { (fwUp bound).fw with mboxes := [(1, List.replicate 8 [])] } }.mbox 1).length < 8)] = true := by
  decide +kernel

/-- Processor `i` in state `x` on `fwUp bound`. -/
def procSt (i x : Nat) : State := { (fwUp bound).setFld (R.FW_STAT i) 63 61 x with ns := 2000000000 }

theorem meets_FirmwareProcessors :
    every [
      decide ((procSt 1 2).procState 1 = 2 ∧ (procSt 1 2).recent (Sparse.get (fun _ => []) (procSt 1 2).fw.regions 1) = [] ∧
        (procSt 1 2).bitOf (R.FW_WDT 1) 31 = true ∧ (procSt 1 2).procState 0 = 2 ∧
        Sparse.get (fun _ => 0) (procSt 1 2).fw.kicked 1 + max 1 ((procSt 1 2).fld (R.FW_WDT 1) 15 0) * 1000000 ≤ (procSt 1 2).ns ∧
        (procSt 1 2).fwReady = true ∧ (procSt 1 2).pending.any (isKick 1) = false ∧
        ((procSt 1 2).fwAccess 1 false 0xFFFFFFFFFFF8).2 ≠ 0 ∧ ((procSt 1 2).fwAccess 1 false (R.FW_STAT 1)).2 = 0),
      acc (procSt 1 2) (.fw 1) (R.FW_KICK 1) false 0,
      decide ((procSt 4 3).procState 4 = 3 ∧ Sparse.get (fun _ => 0) (procSt 4 3).fw.restart 4 + 20000000 ≤ (procSt 4 3).ns),
      decide (((procSt 1 2).setReg R.TOP_REG_ERR 0x102000000000000).reg R.TOP_REG_ERR ≠ 0)] = true := by decide +kernel

/-! ## Power -/

/-- Position 0's core idle, its domain in state `x` with every wake source armed, the power core in RUN. -/
def sleepSt (x : Nat) : State :=
  { ((fwUp (bound.setFld (R.SEQ_STATE 0 0) 2 0 0)).setFld (R.FW_STAT 1) 63 61 2).setFld (R.PWR_DSTATE 0) 31 24 (16 * x + 15) with
    ns := 2000000000 }

/-- A request to take domain 0 to `target`, and what domain 0 has under way. -/
def sleepReq (target : Nat) : State :=
  let s := sleepSt 0
  s.setSys { s.sys with pwr := { s.sys.pwr with req := some ⟨target, 15, 0, 0, 0, 0, [], none⟩ } }
def domSt (x target : Nat) : State :=
  let s := sleepSt x
  s.setSys { s.sys with pwr := { s.sys.pwr with doms := [(0, ⟨5, target, false⟩)] } }

def sleepV : Word64 := BitVec.ofNat 64 (2 ^ 60 + 15 * 2 ^ 56)

theorem meets_SleepAndWake :
    every [
      decide ((sleepSt 0).dstate 0 = 0 ∧ (sleepSt 1).dstate 0 = 1 ∧ (sleepSt 0).slotOf 0 = some 0 ∧ ((sleepSt 0).core 0).mq = [] ∧
        ((sleepSt 0).core 0).vq = [] ∧ ((sleepSt 0).core 0).dq = [] ∧
        (List.range 4).all (fun c => decide ((sleepSt 0).seqState 0 c = 0)) = true),
      decide ((sleepSt 3).dstate 0 = 3 ∧ (sleepSt 3).armed 0 0 = true ∧ (sleepSt 3).armed 0 3 = true ∧ (sleepSt 4).dstate 0 = 4 ∧
        (sleepSt 4).phys 0 = some 0 ∧ (5 : BitVec 14).toNat ≠ (sleepSt 4).chipId),
      acc (sleepSt 0) (.fw 1) R.PWR_SLEEP_REQ true sleepV && decide ((sleepSt 0).sys.pwr.fixed = false ∧
        (sleepSt 0).sys.pwr.req = none ∧ bits sleepV 63 60 = 1 ∧ bits sleepV 9 0 = 0 ∧ bits sleepV 41 32 = 0 ∧
        (sleepSt 0).domAbsent 0 = false),
      acc (sleepReq 1) (.fw 1) R.PWR_SLEEP_REQ true sleepV,
      [(1, 0), (2, 4)].all (fun x => let s := sleepReq x.1;
        decide (s.sys.pwr.req = some ⟨x.1, 15, 0, 0, 0, 0, [], none⟩ ∧ s.dstate 0 = 0 ∧
          s.refusal 0 ⟨x.1, 15, 0, 0, 0, 0, [], none⟩ ⟨false, false, false⟩ = x.2)),
      [3, 4].all (fun x => decide ((domSt 2 x).dstate 0 = 2 ∧ ((domSt 2 x).dom 0).wake = false ∧ ((domSt 2 x).dom 0).target = x ∧
        5 + entryNs (domKind 0) x ≤ (domSt 2 x).ns ∧ (domSt 6 x).dstate 0 = 6 ∧ 5 + exitNs (domKind 0) x ≤ (domSt 6 x).ns))] =
      true := by decide +kernel

/-- Compute die 0 at `mhz`, its record `r`, the power core in RUN. -/
def dieSt (mhz : Nat) (r : DieRec) : State :=
  let s := (sleepSt 0).setFld (R.PWR_CCLK 0) 31 16 mhz
  s.setSys { s.sys with pwr := { s.sys.pwr with dies := [(0, r)] } }

theorem meets_PowerLoopsAndRails :
    every [
      let s := dieSt 1200 DieRec.reset;
      decide (rateOk 1000 = true ∧ s.canChange 0 1000 = true ∧ s.sys.pwr.fixed = false ∧ s.tripped = false ∧
        (s.die 0).railOut = none ∧ s.procState 1 = 2 ∧ s.governs = true ∧ (s.die 0).relock = none ∧
        s.fld (R.PWR_RAIL 0) 47 32 < 5000 ∧ (s.die 0).stepped = none),
      let s := dieSt 1200 { DieRec.reset with relock := some 1000, phase := 3, due := 5 };
      decide ((s.die 0).relock = some 1000 ∧ (s.die 0).phase = 3 ∧ (s.die 0).due + 5000 ≤ s.ns ∧ (s.die 0).railOut = none),
      [2, 4].all (fun ph => let s := dieSt 1200 { DieRec.reset with relock := some 1000, phase := ph, lmax := List.replicate 400 16 };
        decide (s.pending = [] ∧ s.tripped = false ∧ (s.die 0).due ≤ s.ns + 1 ∧ (s.die 0).phase = ph ∧
          (s.die 0).lmax = (s.dieSlots 0).map (fun _ => 16))),
      decide ((dieSt 800 DieRec.reset).fld R.PWR_THERM 23 16 < 200 ∧ (dieSt 800 DieRec.reset).mhz 0 = 800 ∧
        (dieSt 1200 DieRec.reset).mhz 0 = 1200 ∧ 100 ≤ (dieSt 1200 DieRec.reset).fld R.PWR_THERM 23 16 ∧
        (dieSt 1200 DieRec.reset).fld R.PWR_THERM 31 24 < 100 ∧ rateOk (1200 - 50) = true ∧
        (dieSt 1200 DieRec.reset).canChange 0 1150 = true),
      let s := (dieSt 1200 DieRec.reset).setFld (R.HBM_STAT 0) 31 30 1;
      decide (s.stackCap 0 ≠ 0 ∧ s.fld R.PWR_THERM 15 8 < 120 ∧
        (Sparse.get (fun _ => ((0, 0) : Nat × Nat)) s.sys.pwr.slots 0).1 = 0 ∧ s.fld R.PWR_LIMIT 31 16 < 60000),
      decide ((sleepSt 0).sys.pwr.tinAt + (sleepSt 0).fld R.PWR_PLANT 7 0 * 100000000 ≤ (sleepSt 0).ns) &&
        acc (sleepSt 0) (.fw 1) R.PWR_TIN false 30,
      let s := dieSt 1200 { DieRec.reset with railOut := some 7 };
      decide (s.tripped = false ∧ (s.die 0).railOut = some 7 ∧ 7 + 1000000 ≤ s.ns),
      decide (3 ≤ ((dieSt 1200 { DieRec.reset with avs := 3 }).die 0).avs)] = true := by decide +kernel
/-! ## Reset, shed and regeneration -/

/-- A confirmed image in slot A, an empty slot B. -/
def imgA : SlotInfo := ⟨4, 0, 1, 0, 9, 1, 0, 0⟩
def slotsA (b : Nat) : SlotRec := ⟨0, 1, imgA, { imgA with state := b }, 0⟩

/-- A record of which one copy is valid. -/
def once {α : Type} (x : α) : TwoCopies α := ⟨some (1, x), none⟩

/-- Inputs of a boot in which everything passes. -/
def bootIn : BootInputs := 
  ⟨once (slotsA 0), ⟨none, none⟩, ⟨none, none⟩, true, 0, true, true, true, [], [], 0, [], [], [], false, [], []⟩

/-- A warm reset of case 0 has begun. -/
def warmSt : State :=
  let s := fwUp bound
  s.setSys { s.sys with boot := { s.sys.boot with warm := some 0, known := true, slotRec := once (slotsA 0) } }

theorem meets_ResetsAndBringUp :
    every [
      decide ((fwUp bound).procState 0 = 2),
      decide ({ fwUp quarSt with chorus := BitVec.ofNat 72 (60000000 * 256) }.lateReset = true ∧
        ((fwUp bound).setFld (R.FW_STAT 2) 63 61 4).procState 2 = 4 ∧
        (fwUp (State.setSys bound { bound.sys with deadBr := [2] })).sys.deadBr ≠ []),
      decide (State.reset.fld R.TOP_BOOT_STAT 63 60 = 0 ∧ State.reset.sys.boot.warm = none ∧ State.reset.sys.boot.known = false ∧
        bootIn.pll = true ∧ (slotInfo (slotsA 0) (slotsA 0).act).state = 4 ∧ bootIn.sigA = true ∧ bootIn.failProc = [] ∧
        bootIn.deadBr = false ∧ bootIn.flash = true ∧ bootIn.slots.read = some (slotsA 0) ∧ bootIn.settings.read = none),
      decide (warmSt.sys.boot.warm = some 0 ∧ warmSt.sys.boot.known = true ∧ warmSt.sys.boot.slots = some (slotsA 0) ∧
        warmSt.sys.boot.settings = none)] = true := by decide +kernel

/-- Shed stage `x` with slot B in state `b`, the confirmation timer of 10 s past. -/
def shedSt (x b : Nat) : State :=
  let s := railSt.setFld R.FW_SHED_STAT 63 60 x
  { s with ns := 20000000000, sys := { s.sys with shed := { s.sys.shed with tmo := 10, since := 0 }, boot := { s.sys.boot with known := true, slotRec := once (slotsA b), setRec := once ⟨1, false, []⟩ } } }
def shedArgs : List Byte := leBytes 8 0x1000 ++ leBytes 4 4096 ++ leBytes 4 0
def activateArgs : List Byte := leBytes 4 10 ++ leBytes 4 0

theorem meets_ShedStages :
    every [
      decide (leAt shedArgs 0xC 4 = 0 ∧ leAt shedArgs 0 8 % 4096 = 0 ∧ leAt shedArgs 8 4 % 4096 = 0 ∧ 4096 ≤ leAt shedArgs 8 4 ∧
        leAt shedArgs 8 4 ≤ 0x200_0000 ∧ leAt activateArgs 4 4 = 0 ∧ 10 ≤ leAt activateArgs 0 4 ∧ leAt activateArgs 0 4 ≤ 86400),
      [0, 1, 2, 4, 6].all (fun x => decide ((shedSt x 0).stage = x ∧ (shedSt x 0).sys.boot.slots = some (slotsA 0))),
      [(true, (0 : Status)), (false, 0x1203)].all (fun x => decide ((shedSt 2 1).verifyStatus ⟨x.1, 1, 0, 9, 1, 0⟩ = x.2)),
      decide ((shedSt 6 3).sys.shed.since + (shedSt 6 3).sys.shed.tmo * 1000000000 ≤ (shedSt 6 3).ns)] = true := by decide +kernel

theorem firstOf_append {α : Type} {l m : List (Bool × α)} (h : firstOf l = none) (k : firstOf m = none) :
    firstOf (l ++ m) = none := by
  induction l with
  | nil => exact k
  | cons x l ih =>
    obtain ⟨c, a⟩ := x
    simp only [List.cons_append, firstOf] at h ⊢
    split at h
    · cases h
    · rename_i hc
      rw [if_neg hc]
      exact ih h

/-- The stored settings pass, whatever the dies' currents are. -/
theorem meets_ShedStages_activate : (shedSt 4 2).swapStatus (slotInfo (slotsA 2) 1) ⟨none, []⟩ = 0 := by
  have h : (shedSt 4 2).commitCheck 0b100011 [] = none := by
    have h : (shedSt 4 2).commitCheck 0b100011 [] = firstOf (chrChecks ((shedSt 4 2).copyShadows 0b100011)
      (fun p => ((shedSt 4 2).copyShadows 0b100011).mx3Port p || ([] : List (Fin 4)).any (fun x => x.val == p)) ++
      lnkChecks ((shedSt 4 2).copyShadows 0b100011) ++ [] ++ [] ++ [] ++ [] ++ pwrChecks ((shedSt 4 2).copyShadows 0b100011)) := rfl
    rw [h]
    refine firstOf_append (by decide +kernel) (pwrChecks_none (by decide +kernel))
  have l : (shedSt 4 2).loadSettings ⟨1, false, []⟩ = shedSt 4 2 := rfl
  have e : (shedSt 4 2).sys.boot.settings = some ⟨1, false, []⟩ := rfl
  simp [State.swapStatus, State.settingsReason, e, l, h, slotInfo, slotsA, imgA]

/-- Position 0 of cluster 0 retiring, `j` the position of the cluster's spare. -/
def retireSt (j : Nat) : State :=
  let s := ((fwUp (bound.setFld (R.SEQ_STATE 0 0) 2 0 0)).setFld (R.FW_STAT 3) 63 61 2).setFld (R.TOP_CLUSTER 0) 20 16 j
  s.setSys { s.sys with retire := [⟨0, 0, false, none⟩] }

theorem meets_Regeneration :
    every [
      decide ((retireSt 25).slotOf 0 = some 0 ∧ (retireSt 25).retiring 0 = true ∧ (retireSt 25).spare 0 = some 25 ∧
        (retireSt 25).quietCore 0 = true ∧ (retireSt 0x1F).spare 0 = none ∧ (retireSt 0x1F).retiring 0 = true) &&
        (List.range 4).all (fun c => decide ((retireSt 0x1F).seqState 0 c = 0)),
      let s := (retireSt 25).modPos 0 (fun x => { x with pad := { x.pad with cands := [(3, 100)] } });
      decide ((s.pos 0).pad.cands = [(3, 100)] ∧ s.procState (3 + 0 / 26) = 2 ∧
        Sparse.get (fun _ => 0) (s.pos 0).pad.spares (2 * 3) < 4)] = true := by decide +kernel

/-! ## The package -/

/-- PHASE `x`, with 4 erased bytes of flash at 0x100. -/
def flashSt (x : Nat) : State :=
  let s := bound.setFld R.TOP_BOOT_STAT 63 60 x
  s.setSys { s.sys with boot := { s.sys.boot with
    bytes := [(0x100, some 0xFF), (0x101, some 0xFF), (0x102, some 0xFF), (0x103, some 0xFF)] } }

theorem meets_Sideband :
    every [
      decide ((flashSt 7).sys.sb.waits = false ∧ (flashSt 7).fld R.TOP_BOOT_STAT 63 60 = 7 ∧
        (flashSt 8).fld R.TOP_BOOT_STAT 63 60 = 8),
      (List.range 4).all (fun i => decide (Sparse.get (fun _ => none) (flashSt 8).sys.boot.bytes (0x100 + i) = some 0xFF#8)),
      [R.PWR_STAT, R.PWR_LIMIT_SH].all (fun a => match regInfo State.reset.variant a with
        | some i => decide (sbWide State.reset.variant a = i.wide ∧ (State.reset.sbCheck a i.wide (State.reset.sbReads a) = 0 ∨
            a ≠ R.PWR_STAT) ∧ (State.reset.sbCheck a i.wide (sbWrites a) = 0 ∨ a = R.PWR_STAT) ∧
            (i.wide = true ∨ a % 8 ≠ 4) ∧ (0x2580009#64 &&& ~~~ BitVec.ofNat 64 i.mask = 0 ∨ a = R.PWR_STAT))
        | none => false),
      decide (blockOf R.PWR_LIMIT_SH = some (.pwr, R.PWR_LIMIT_SH - R.pwrBase) ∧ 0x500 ≤ R.PWR_LIMIT_SH - R.pwrBase ∧
        State.reset.shadowLocked R.PWR_LIMIT_SH = false)] = true := by decide +kernel

/-! ## The whole machine -/

theorem meets_EmptyQueueTicks :
    every [([(0, 3), (0, -3), (1, 3), (0, 0)] : List (Nat × Int)).all (fun x =>
      let s := { State.reset with chr := { ChrState.reset with slewWait := x.1, slew := x.2 } };
      decide (s.pending = [] ∧ s.chr.slewWait = x.1 ∧ s.chr.slew = x.2))] = true := by decide +kernel

/-- A step from the state after reset, with one command waiting, and the state it comes from is in canonical form. -/
theorem meets_EveryStepKeepsCanonicalForm : State.reset.canonical ∧
    step { State.reset with pending := [.vfEnable 3] } = .next (State.reset.setFw { FwState.reset with numVfs := 3 }) :=
  ⟨⟨rfl, rfl⟩, rfl⟩
end Sys2Proof.Tests
end

section
/-!
SUPPORT. Laws of scalar arithmetic: what the values of R158 and R162 are as operations of `BitVec`, and what an instruction of
the R or I form that is ready does.
-/

namespace Sys2Proof.Machine

/-! ## Values of the arithmetic forms -/

theorem bits_low_six {n : Nat} (w : BitVec n) : bits w 5 0 = w.toNat % 64 := by simp [bits, natBits]

theorem fImmS_eq_signExtend (f : IBits) : fImmS f = (f.truncate 32).signExtend 64 := by
  unfold fImmS sext64 BitVec.signExtend signed bits natBits
  congr 1
  simp only [BitVec.toInt_eq_toNat_cond, BitVec.truncate_eq_setWidth, BitVec.toNat_setWidth, Nat.shiftRight_zero, Nat.reduceAdd,
    Nat.reduceSub, Nat.reducePow]
  split <;> split <;> omega

theorem fImmZ_eq_zeroExtend (f : IBits) : fImmZ f = (f.truncate 32).zeroExtend 64 := by
  apply BitVec.eq_of_toNat_eq
  simp [fImmZ, bits, natBits]

/-- A comparison of signed values is `BitVec.slt`. -/
theorem ite_toInt_lt {α : Type} (a b : Word64) (x y : α) :
    (if a.toInt < b.toInt then x else y) = if a.slt b then x else y := by
  simp only [BitVec.slt_iff_toInt_lt]

/-- The lesser of two words does not depend on which of the two is taken when they are equal. -/
theorem ite_lt_comm_of_injective {α : Type} [LinearOrder α] {g : Word64 → α} (hg : Function.Injective g) (a b : Word64) :
    (if g b < g a then b else a) = if g a < g b then a else b := by
  rcases lt_trichotomy (g a) (g b) with h | h | h
  · rw [if_neg h.le.not_gt, if_pos h]
  · rw [hg h, ite_self]
  · rw [if_pos h, if_neg h.le.not_gt]

/-! ## The R and I forms -/

theorem Issued.checked_single (s : State) (st : Status) (ok : Unit → Issued) : Issued.checked s [(false, st)] ok = ok () := (rfl)

/-- The PC of an instruction that is ready leaves room for the next one. -/
theorem State.ready.runPc_lt {s : State} {k : Nat} {rs : List Nat} (h : s.ready k rs) : s.runPc k + 8 < 2 ^ 22 := by
  obtain ⟨-, -, hpc, -, -⟩ := h
  omega

/-- An instruction that is ready and whose body is done goes on by one instruction. -/
theorem State.issue_done {s u : State} {k : Nat} {rs : List Nat} (h : s.ready k rs) (op : Nat) (f : IBits) (unit : Nat)
    {body : State → CtxId → Issued} (hb : body (s.atIssue k) (s.running k) = .done u) :
    s.issue k op f unit rs body = u.issued k (s.running k) (s.runPc k + 8) := by
  rw [State.issue_ready h, hb, State.afterIssue]

/-- An instruction that is ready and whose body writes `v` to `rd` makes a scalar result. -/
theorem State.issue_setSreg {s : State} {k rd : Nat} {rs : List Nat} (h : s.ready k rs) (op : Nat) (f : IBits) (unit : Nat)
    (v : Word64) {body : State → CtxId → Issued}
    (hb : body (s.atIssue k) (s.running k) = .done ((s.atIssue k).setSreg k (s.running k).val rd v)) :
    ScalarResult (s.atIssue k) (s.issue k op f unit rs body) k rd v (s.runPc k + 8) := by
  rw [State.issue_done h op f unit hb]
  simpa using State.scalarResult (s.atIssue k) k rd v _ h.runPc_lt

/-- A three-register form that is ready puts `g` of RA and RB into RD. -/
theorem State.aluR_result {s : State} {k : Nat} {f : IBits} (h : s.ready k [fRA f, fRB f, fRD f]) (hf : bits f 40 0 = 0) (op : Nat)
    (g : Word64 → Word64 → Word64) :
    ScalarResult (s.atIssue k) (s.aluR k op f g) k (fRD f) (g (s.runReg k (fRA f)) (s.runReg k (fRB f))) (s.runPc k + 8) := by
  unfold State.aluR
  apply State.issue_setSreg h
  simp [hf, Issued.checked_single, State.runReg]

/-- An immediate form that is ready puts `g` of RA into RD. -/
theorem State.aluI_result {s : State} {k : Nat} {f : IBits} {shift : Bool} (h : s.ready k [fRA f, fRD f]) (hf : bits f 45 32 = 0)
    (hs : shift = true → bits f 31 6 = 0) (op : Nat) (g : Word64 → Word64) :
    ScalarResult (s.atIssue k) (s.aluI k op f shift g) k (fRD f) (g (s.runReg k (fRA f))) (s.runPc k + 8) := by
  have hc : (shift && decide (bits f 31 6 ≠ 0)) = false := by simpa using hs
  unfold State.aluI
  apply State.issue_setSreg h
  simp only [hf, hc]
  simp [Issued.checked_single, State.runReg]

end Sys2Proof.Machine
end

section
/-!
The arithmetic of the sequencer (chapter 06).
-/

namespace Sys2Proof.Proofs

open Sys2Proof Sys2Proof.Machine

/-- Settles O2: each instruction is a three-register or an immediate form, whose result is that of `State.aluR_result` or
`State.aluI_result`. -/
theorem arithmetic : Obligations.Arithmetic := by
  unfold Obligations.Arithmetic
  constructor
  · intro k f s hr hf a b
    have result {c : Instr} {op : Nat} {g : Word64 → Word64 → Word64} {v : Word64}
        (hexec : exec c s = .next (s.aluR k.val op f g)) (hv : g a b = v) :
        ∃ t, exec c s = .next t ∧ ScalarResult (s.atIssue k.val) t k.val (fRD f) v (s.runPc k.val + 8) :=
      ⟨_, hexec, hv ▸ State.aluR_result hr hf op g⟩
    have hb : bits b 5 0 = b.toNat % 64 := bits_low_six b
    have hmin := (ite_lt_comm_of_injective (fun _ _ => BitVec.eq_of_toInt_eq) a b).trans (ite_toInt_lt a b a b)
    have hminu := ite_lt_comm_of_injective (fun _ _ => BitVec.eq_of_toNat_eq) a b
    simp only [List.forall_mem_cons, List.not_mem_nil, false_imp_iff, implies_true, and_true]
    exact ⟨result rfl rfl, result rfl rfl, result rfl rfl, result rfl rfl, result rfl rfl,
      result rfl (by rw [hb]), result rfl (by rw [hb]), result rfl (by rw [hb]), result rfl rfl, result rfl hmin,
      result rfl (ite_toInt_lt a b b a), result rfl hminu, result rfl rfl, result rfl (ite_toInt_lt a b 1 0), result rfl rfl⟩
  · intro k f s hr hf a i z n
    have result {c : Instr} {op : Nat} {shift : Bool} {g : Word64 → Word64} {v : Word64} (hs : shift = true → bits f 31 6 = 0)
        (hexec : exec c s = .next (s.aluI k.val op f shift g)) (hv : g a = v) :
        ∃ t, exec c s = .next t ∧ ScalarResult (s.atIssue k.val) t k.val (fRD f) v (s.runPc k.val + 8) :=
      ⟨_, hexec, hv ▸ State.aluI_result hr hf hs op g⟩
    have hi : fImmS f = i := fImmS_eq_signExtend f
    have hz : fImmZ f = z := fImmZ_eq_zeroExtend f
    have hn : bits f 5 0 = n := bits_low_six f
    simp only [List.forall_mem_cons, List.not_mem_nil, false_imp_iff, implies_true, and_true]
    have noShift : false = true → bits f 31 6 = 0 := nofun
    refine ⟨⟨result noShift rfl (by rw [hi]), result noShift rfl (by rw [hz]), result noShift rfl (by rw [hz]),
      result noShift rfl (by rw [hz]), result noShift rfl ?_⟩, fun hs => ⟨result (fun _ => hs) rfl (by rw [hn]),
      result (fun _ => hs) rfl (by rw [hn]), result (fun _ => hs) rfl (by rw [hn])⟩⟩
    rw [hi]
    exact ite_toInt_lt a i 1 0

end Sys2Proof.Proofs
end

section
/-!
SUPPORT. Laws of STATE (R172): the register writes that leave the STATE of every context as it was, up to the state in which an
instruction that is ready issues.
-/

namespace Sys2Proof.Machine

/-! ## Addresses -/

/-- An address at which no STATE lies: below the blocks of the cores, or past the first words of a block of 4 KiB. -/
def R.NotState (a : Nat) : Prop := a < R.seqBase 0 ∨ 0x10 ≤ a % 0x1000

theorem R.NotState.ne_SEQ_STATE {a : Nat} (h : R.NotState a) (k : Nat) (c : CtxId) : R.SEQ_STATE k c.val ≠ a := by
  have := c.isLt
  unfold R.NotState at h
  unfold R.SEQ_STATE
  unfold R.seqBase at *
  omega

theorem notState_SEQ_PC (k : Nat) (c : CtxId) : R.NotState (R.SEQ_PC k c.val) := by
  have := c.isLt
  unfold R.NotState R.SEQ_PC R.seqBase
  omega

theorem notState_SEQ_ISSUE_CNT (k : Nat) : R.NotState (R.SEQ_ISSUE_CNT k) := by
  unfold R.NotState R.SEQ_ISSUE_CNT R.seqBase
  omega

theorem notState_FLG_WAIT (k : Nat) (c : CtxId) : R.NotState (R.FLG_WAIT k c.val) := by
  have := c.isLt
  unfold R.NotState R.FLG_WAIT R.flgBase R.seqBase
  omega

theorem notState_SP_UE_FIRST (k : Nat) : R.NotState (R.SP_UE_FIRST k) := by
  unfold R.NotState R.SP_UE_FIRST R.spBase R.seqBase
  omega

theorem notState_SP_UE_CNT (k : Nat) : R.NotState (R.SP_UE_CNT k) := by
  unfold R.NotState R.SP_UE_CNT R.spBase R.seqBase
  omega

theorem notState_MBX_NR_TAIL (f : Nat) : R.NotState (R.MBX_NR_TAIL f) := by
  unfold R.NotState R.MBX_NR_TAIL R.mbxBase R.seqBase
  omega

theorem notState_MBX_NR_LOST (f : Nat) : R.NotState (R.MBX_NR_LOST f) := by
  unfold R.NotState R.MBX_NR_LOST R.mbxBase R.seqBase
  omega

theorem notState_TOP_CLUSTER {c : Nat} (h : c < 32) : R.NotState (R.TOP_CLUSTER c) := by
  unfold R.NotState R.TOP_CLUSTER R.topBase R.seqBase
  omega

theorem notState_TOP_POS {p : Nat} (h : p < 1024) : R.NotState (R.TOP_POS p) := by
  unfold R.NotState R.TOP_POS R.topBase R.seqBase
  omega

theorem notState_HBM_CBKT {p : Nat} (h : p < 1024) : R.NotState (R.HBM_CBKT p) := by
  unfold R.NotState R.HBM_CBKT R.hbmBase R.seqBase
  omega

/-! ## What keeps the STATE of every context -/

/-- Every SEQ_STATE register reads the same in `t` as in `s`. -/
def State.SameStates (s t : State) : Prop := ∀ (k : Nat) (c : CtxId), t.reg (R.SEQ_STATE k c.val) = s.reg (R.SEQ_STATE k c.val)

namespace State.SameStates

variable {s t : State}

theorem refl (s : State) : s.SameStates s := fun _ _ => rfl

theorem seqState (h : s.SameStates t) (k : Nat) (c : CtxId) : t.seqState k c.val = s.seqState k c.val := by
  unfold State.seqState State.fld
  rw [h k c]

theorem setFe (h : s.SameStates t) (x : FeState) : s.SameStates (t.setFe x) := h
theorem setFw (h : s.SameStates t) (x : FwState) : s.SameStates (t.setFw x) := h
theorem setSys (h : s.SameStates t) (x : SysState) : s.SameStates (t.setSys x) := h
theorem setMsix (h : s.SameStates t) (x : List (Nat × Nat)) : s.SameStates (t.setMsix x) := h
theorem modFn (h : s.SameStates t) (f : Nat) (g : FnState → FnState) : s.SameStates (t.modFn f g) := h
theorem modPos (h : s.SameStates t) (p : Nat) (g : PosState → PosState) : s.SameStates (t.modPos p g) := h
theorem modCtx (h : s.SameStates t) (k c : Nat) (g : CtxState → CtxState) : s.SameStates (t.modCtx k c g) := h

theorem setReg (h : s.SameStates t) {a : Nat} (ha : R.NotState a) (v : Word64) : s.SameStates (t.setReg a v) := fun k c =>
  (State.reg_setReg_ne t v (ha.ne_SEQ_STATE k c)).trans (h k c)

theorem setFld (h : s.SameStates t) {a : Nat} (ha : R.NotState a) (hi lo x : Nat) : s.SameStates (t.setFld a hi lo x) :=
  h.setReg ha _

theorem satInc (h : s.SameStates t) {a : Nat} (ha : R.NotState a) (hi lo n : Nat) : s.SameStates (t.satInc a hi lo n) :=
  h.setFld ha _ _ _

theorem modCore (h : s.SameStates t) (k : Nat) (g : CoreState → CoreState) : s.SameStates (t.modCore k g) := h

theorem setPc (h : s.SameStates t) (k : Nat) (c : CtxId) (x : Nat) : s.SameStates (t.setPc k c.val x) :=
  h.setFld (notState_SEQ_PC k c) _ _ _

theorem wrapInc (h : s.SameStates t) {a : Nat} (ha : R.NotState a) (hi lo n : Nat) : s.SameStates (t.wrapInc a hi lo n) :=
  h.setFld ha _ _ _

theorem issued (h : s.SameStates t) (k : Nat) (c : CtxId) (pc : Nat) : s.SameStates (t.issued k c pc) :=
  ((h.setPc k c pc).wrapInc (notState_SEQ_ISSUE_CNT k) _ _ _).modCore _ _

theorem firstErr (h : s.SameStates t) {a : Nat} (ha : R.NotState a) (v : Word64) : s.SameStates (t.firstErr a v) := by
  unfold State.firstErr
  split
  · exact h.setReg ha v
  · exact h

theorem ite {b : Prop} [Decidable b] {u : State} (h : s.SameStates t) (h' : s.SameStates u) :
    s.SameStates (if b then t else u) := by
  split <;> assumption

theorem foldl {β : Type} {f : State → β → State} {l : List β}
    (hf : ∀ b ∈ l, ∀ t, s.SameStates t → s.SameStates (f t b)) (h : s.SameStates t) : s.SameStates (l.foldl f t) := by
  induction l generalizing t with
  | nil => exact h
  | cons b l ih => exact ih (fun x hx => hf x (by simp [hx])) (hf b (by simp) t h)

/-! ### Notices and the capability block -/

theorem raiseMsix (h : s.SameStates t) (f v : Nat) : s.SameStates (t.raiseMsix f v) := by
  unfold State.raiseMsix
  split
  · exact h.modFn _ _
  · exact h.setMsix _

theorem nrWrite (h : s.SameStates t) (f : Nat) (n : Notice) : s.SameStates (t.nrWrite f n) := by
  unfold State.nrWrite
  dsimp only
  have hw (g : FnState → FnState) (x : Nat) : s.SameStates (((t.modFn f g).setFld (R.MBX_NR_TAIL f) 4 0 x).raiseMsix f 8) :=
    ((h.modFn f g).setFld (notState_MBX_NR_TAIL f) 4 0 x).raiseMsix f 8
  split
  · exact hw _ _
  · exact (hw _ _).setFw _

theorem notice (h : s.SameStates t) (f ty : Nat) (st : Status) (b : List Byte) (c : Option Nat) :
    s.SameStates (t.notice f ty st b c) := by
  unfold State.notice
  dsimp only
  split
  · exact (h.modFn _ _).nrWrite f _
  · split
    · exact (h.modFn _ _).modFn _ _
    · exact ((h.modFn _ _).modFn _ _).satInc (notState_MBX_NR_LOST f) _ _ _

theorem noticeAll (h : s.SameStates t) (ty : Nat) (st : Status) (b : List Byte) : s.SameStates (t.noticeAll ty st b) :=
  h.foldl fun f _ _ h => h.notice f ty st b none

theorem clusterSync (h : s.SameStates t) {c : Nat} (hc : c < 32) : s.SameStates (t.clusterSync c) :=
  ((h.setFld (notState_TOP_CLUSTER hc) _ _ _).setFld (notState_TOP_CLUSTER hc) _ _ _).setFld (notState_TOP_CLUSTER hc) _ _ _

theorem capSync (h : s.SameStates t) : s.SameStates t.capSync := by
  have hclusters := h.foldl (l := List.range 32) (f := fun t c => t.clusterSync c) fun c hc t ht =>
    ht.clusterSync (List.mem_range.mp hc)
  have hid : s.SameStates (State.capSyncId _) := hclusters.setReg (.inl (by decide)) _
  have hunit : s.SameStates (State.capSyncUnit _) := hid.setReg (.inl (by decide)) _
  have hstates : s.SameStates (State.capSyncStates _) :=
    ((hunit.setReg (.inl (by decide)) _).setReg (.inl (by decide)) _).setReg (.inl (by decide)) _
  have hcores : s.SameStates (State.capSyncCores _) := (hstates.setReg (.inl (by decide)) _).setReg (.inl (by decide)) _
  exact (hcores.setReg (.inl (by decide)) _).setReg (.inl (by decide)) _

theorem capUpdate (h : s.SameStates t) {f : State → State} (hf : ∀ u, s.SameStates u → s.SameStates (f u)) :
    s.SameStates (t.capUpdate f) := by
  have hgen : R.NotState R.TOP_CAP_GEN := .inl (by decide)
  unfold State.capUpdate
  split
  · exact hf t h
  · exact ((hf _ (h.wrapInc hgen _ _ _)).capSync.wrapInc hgen _ _ _).noticeAll _ _ _

/-! ### Reads of a scratchpad and the fetch of a row -/

theorem retireCheck (h : s.SameStates t) {p : Nat} (hp : p < 1024) : s.SameStates (t.retireCheck p) := by
  unfold State.retireCheck
  dsimp only
  split
  · have hstat : R.NotState R.TOP_REGEN_STAT := .inl (by decide)
    exact ((h.capUpdate fun u hu => hu.setFld (notState_TOP_POS hp) 31 29 3).satInc hstat _ _ _).setSys _
  · exact h

theorem ueEvent (h : s.SameStates t) {p : Nat} (hp : p < 1024) : s.SameStates (t.ueEvent p) := by
  unfold State.ueEvent
  exact (h.modPos _ _).retireCheck hp

theorem coreEvent (h : s.SameStates t) (p : Nat) : s.SameStates (t.coreEvent p) := by
  unfold State.coreEvent
  split
  · rename_i hp
    have hb : R.NotState (R.HBM_CBKT p) := notState_HBM_CBKT (by omega)
    unfold State.bucketEvent
    dsimp only
    split
    · exact (((h.satInc hb _ _ _).setFld hb _ _ _).retireCheck (by omega)).setFw _
    · exact h.setFld hb _ _ _
  · exact h

theorem rowCand (h : s.SameStates t) (p w : Nat) : s.SameStates (t.rowCand p w) := h.modPos p _

theorem spUe (h : s.SameStates t) (k : Option Nat) {p : Nat} (hp : p < 1024) (w : Nat) (st : Status) :
    s.SameStates (t.spUe k p w st) := by
  have hcause : s.SameStates (if st = 0x0703 then t else (t.rowCand p w).ueEvent p) := by
    split
    · exact h
    · exact (h.rowCand p w).ueEvent hp
  unfold State.spUe
  dsimp only
  split
  · exact hcause
  · exact (hcause.firstErr (notState_SP_UE_FIRST _) _).satInc (notState_SP_UE_CNT _) _ _ _

theorem touchWord (h : s.SameStates t) (k : Option Nat) {p : Nat} (hp : p < 1024) (w : Nat) :
    s.SameStates (t.touchWord k p w) := by
  unfold State.touchWord
  dsimp only
  split
  · split
    · exact h
    · exact h.spUe k hp w _
  · split
    · refine (modPos ?_ _ _).coreEvent p
      split
      · exact h.rowCand p w
      · exact h
    · exact h

theorem padRead (h : s.SameStates t) (k off len : Nat) : s.SameStates (t.padRead k off len).1 := by
  unfold State.padRead
  split
  · rename_i p hk
    have hp : p < 1024 := by
      unfold State.phys at hk
      split at hk
      · cases hk
        exact State.fld_lt t _ 9 0
      · cases hk
    exact h.foldl fun w _ _ ht => ht.touchWord (some k) hp w
  · exact h

theorem fetchRow (h : s.SameStates t) (k : Nat) (c : CtxId) (row : Nat) : s.SameStates (t.fetchRow k c row) := by
  unfold State.fetchRow
  split
  · exact h
  · dsimp only
    refine modCtx ?_ _ _ _
    split
    · exact h.padRead k _ _
    · exact h

theorem withRow (h : s.SameStates t) (k : Nat) (c : CtxId) (pc : Nat) : s.SameStates (t.withRow k c pc) := by
  unfold State.withRow
  split
  · exact h
  · exact h.fetchRow k c _

/-! ### The first issue of a kernel -/

theorem noteFirst (h : s.SameStates t) (kn : Kernel) : s.SameStates (t.noteFirst kn) := by
  unfold State.noteFirst
  split
  · exact h
  · have hlate : R.NotState R.CHR_LATE_CNT := .inl (by decide)
    exact ite ((h.setFe _).satInc hlate _ _ _) (h.setFe _)

theorem firstIssue (h : s.SameStates t) (k : Nat) (c : CtxId) : s.SameStates (t.firstIssue k c) := by
  unfold State.firstIssue
  split
  · split
    · exact h
    · exact (h.modCtx _ _ _).noteFirst _
  · exact h

end State.SameStates

/-! ## STATE where an instruction issues -/

/-- STATE after it was set. -/
theorem State.seqState_setSeqState (s : State) (k c x : Nat) : (s.setSeqState k c x).seqState k c = x % 8 :=
  State.fld_setFld_self s _ 2 0 x (by omega)

/-- The PC of the running context after the advance. -/
theorem State.runPc_issued {s : State} {k pc : Nat} {c : CtxId} (hc : s.running k = c) (h : pc < 2 ^ 22) :
    (s.issued k c pc).runPc k = pc := by
  have hrun : (s.issued k c pc).running k = c := by
    rw [← hc]
    unfold State.running
    rw [State.issued_core, if_pos rfl]
  unfold State.runPc
  rw [hrun]
  exact State.issued_pc s k c pc h

/-- The context of an instruction that is ready is in RUN when it issues: it was, or it waited under R155. -/
theorem State.ready.seqState_atIssue {s : State} {k : Nat} {rs : List Nat} (h : s.ready k rs) :
    (s.atIssue k).seqState k (s.running k).val = 1 := by
  obtain ⟨hc, -, -, -, -⟩ := h
  have hs : s.seqState k (s.running k).val = 1 ∨ s.seqState k (s.running k).val = 2 := by
    simp only [State.canIssue, Bool.and_eq_true, decide_eq_true_eq] at hc
    exact hc.2
  have hf : (s.fetched k).seqState k (s.running k).val = s.seqState k (s.running k).val :=
    ((State.SameStates.refl s).withRow k _ _).seqState k _
  unfold State.atIssue
  rw [((State.SameStates.refl _).firstIssue k (s.running k)).seqState]
  unfold State.unstalled
  split
  · exact State.seqState_setSeqState _ _ _ _
  · omega

end Sys2Proof.Machine
end

section
/-!
SUPPORT. Laws of faults and of a kernel's end (R161, R170): what the stop of a context leaves alone and what it discards.
-/

namespace Sys2Proof.Machine

/-! ## What keeps the scalar registers, the memories and the partitions -/

/-- Every scalar register, every memory and every partition's record are in `t` as in `s`. -/
structure State.SameStore (s t : State) : Prop where
  sregs : ∀ j d i, t.sreg j d i = s.sreg j d i
  posns : t.posns = s.posns
  hbm : t.hbm = s.hbm
  parts : t.fe.parts = s.fe.parts

namespace State.SameStore

variable {s t : State}

theorem refl (s : State) : s.SameStore s := ⟨fun _ _ _ => rfl, rfl, rfl, rfl⟩

theorem part (h : s.SameStore t) (p : Nat) : t.part p = s.part p := by
  unfold State.part
  rw [h.parts]

theorem setReg (h : s.SameStore t) (a : Nat) (v : Word64) : s.SameStore (t.setReg a v) := ⟨h.sregs, h.posns, h.hbm, h.parts⟩

theorem setFld (h : s.SameStore t) (a hi lo x : Nat) : s.SameStore (t.setFld a hi lo x) := h.setReg a _

theorem setPc (h : s.SameStore t) (k c x : Nat) : s.SameStore (t.setPc k c x) := h.setFld _ _ _ _

theorem setSeqState (h : s.SameStore t) (k c x : Nat) : s.SameStore (t.setSeqState k c x) := h.setFld _ _ _ _

theorem setFw (h : s.SameStore t) (x : FwState) : s.SameStore (t.setFw x) := ⟨h.sregs, h.posns, h.hbm, h.parts⟩

theorem setFe (h : s.SameStore t) {x : FeState} (hx : x.parts = t.fe.parts) : s.SameStore (t.setFe x) :=
  ⟨h.sregs, h.posns, h.hbm, hx.trans h.parts⟩

theorem takeFree (h : s.SameStore t) : s.SameStore t.takeFree := ⟨h.sregs, h.posns, h.hbm, h.parts⟩

theorem gated (h : s.SameStore t) (k : Nat) : s.SameStore (t.gated k) := (h.setFld _ _ _ _).takeFree

theorem modCore (h : s.SameStore t) (k : Nat) {g : CoreState → CoreState}
    (hg : ∀ x d i, ((g x).ctx d).sreg i = (x.ctx d).sreg i) : s.SameStore (t.modCore k g) := by
  refine ⟨fun j d i => ?_, h.posns, h.hbm, h.parts⟩
  rw [← h.sregs j d i]
  unfold State.sreg State.ctx
  by_cases hj : j = k
  · subst hj
    rw [State.core_modCore_self, hg]
  · rw [State.core_modCore_ne _ _ hj]

theorem modCtx (h : s.SameStore t) (k c : Nat) {g : CtxState → CtxState} (hg : ∀ x i, (g x).sreg i = x.sreg i) :
    s.SameStore (t.modCtx k c g) := by
  refine ⟨fun j d i => ?_, h.posns, h.hbm, h.parts⟩
  rw [← h.sregs j d i]
  unfold State.sreg
  rw [State.ctx_modCtx]
  split
  · rename_i hjd
    rw [hg, hjd.1, hjd.2]
  · rfl

theorem absorb (h : s.SameStore t) (f q n : Nat) : s.SameStore (t.absorb f q n) := by
  induction n generalizing t with
  | zero => exact h
  | succ n ih =>
    unfold State.absorb
    dsimp only
    split
    · exact ih ((h.setFe (by rfl)).setFld _ _ _ _)
    · exact h

theorem returnEntry (h : s.SameStore t) (f q : Nat) (e : QueueEntry) : s.SameStore (t.returnEntry f q e) :=
  (h.setFe (by rfl)).absorb _ _ _

theorem dropBask (h : s.SameStore t) (k c : Nat) : s.SameStore (t.dropBask k c) := by
  unfold State.dropBask
  split
  · exact h
  · have hw := h.modCtx k c (g := fun t => { t with bask := none }) fun _ _ => rfl
    dsimp only
    split
    · exact hw.returnEntry _ _ _
    · exact hw

theorem logPut (h : s.SameStore t) (proc code level : Nat) (d : List Nat) : s.SameStore (t.logPut proc code level d) := h.setFw _

theorem logEvent (h : s.SameStore t) (proc code level : Nat) (d : List Nat) : s.SameStore (t.logEvent proc code level d) := by
  have hput := h.logPut proc code level d
  unfold State.logEvent
  dsimp only
  split
  · exact hput.setFw _
  · rename_i e _
    by_cases hsec : e.sec = t.chorusNs / 1000000000
    · rw [if_pos hsec]
      split
      · exact h.setFw _
      · exact hput.setFw _
    · rw [if_neg hsec]
      refine (logPut ?_ _ _ _ _).setFw _
      split
      · exact h
      · exact h.logPut _ _ _ _

theorem dropLate (h : s.SameStore t) (func core kind ident : Nat) (was now : BitVec 4) :
    s.SameStore (t.dropLate func core kind ident was now) := (h.setFld _ _ _ _).logEvent _ _ _ _

theorem ifCurrent (h : s.SameStore t) {u : State} (hu : s.SameStore u) (k c kind ident : Nat) (e : BitVec 4) :
    s.SameStore (t.ifCurrent k c kind ident e u) := by
  unfold State.ifCurrent
  split
  · split
    · exact hu
    · exact h.dropLate _ _ _ _ _ _
  · exact hu

theorem coreDone (h : s.SameStore t) (k c : Nat) : s.SameStore (t.coreDone k c) := by
  unfold State.coreDone
  split
  · exact h.ifCurrent (h.setFe (by rfl)) _ _ _ _ _
  · exact h

end State.SameStore

/-! ## The discard of later work (R161) -/

/-- A core whose context `c` stopped at `seq` holds no later matrix, vector or transfer work of it. -/
theorem CoreState.discard_queues (x : CoreState) (c : CtxId) (seq : Nat) :
    (∀ e ∈ (x.discard c seq).mq, e.ctx = c → e.seq ≤ seq) ∧ (∀ e ∈ (x.discard c seq).vq, e.ctx = c → e.seq ≤ seq) ∧
      ∀ e ∈ (x.discard c seq).dq, e.ctx = c → e.seq ≤ seq := by
  have hle {d : CtxId} {q : Nat} (h : (!(decide (d = c) && decide (seq < q))) = true) (hd : d = c) : q ≤ seq := by
    simpa [hd] using h
  exact ⟨fun e he => hle (List.mem_filter.mp he).2, fun e he => hle (List.mem_filter.mp he).2,
    fun e he => hle (List.mem_filter.mp he).2⟩

theorem CoreState.discard_sreg (x : CoreState) (c : CtxId) (seq d i : Nat) :
    ((x.discard c seq).ctx d).sreg i = (x.ctx d).sreg i := by
  unfold CoreState.discard
  dsimp only
  by_cases hd : d = c.val
  · subst hd
    rw [CoreState.ctx_setCtx_self]
    rfl
  · rw [CoreState.ctx_setCtx_ne _ _ hd]
    rfl

/-! ## The stop of a context (R161) -/

theorem State.SameStore.stopCtx {s t : State} (h : s.SameStore t) (k : Nat) (c : CtxId) (r : Report) :
    s.SameStore (t.stopCtx k c r) := by
  unfold State.stopCtx
  dsimp only
  refine ((((dropBask ?_ k c.val).modCore k ?_).modCtx k c.val ?_).setSeqState _ _ _ |>.setPc _ _ _).setFld _ _ _ _
  · split
    · exact h.gated k
    · exact h
  · exact fun x d i => x.discard_sreg c r.seq d i
  · exact fun _ _ => rfl

/-- What a context that stops leaves on its core is what the discard of later work leaves, beside the mark of its fault. -/
theorem State.stopCtx_core (s : State) (k : Nat) (c : CtxId) (r : Report) :
    ∃ x y, (s.stopCtx k c r).core k = (CoreState.discard x c r.seq).setCtx c.val y := by
  unfold State.stopCtx State.modCtx
  dsimp only
  rw [State.core_setFld, State.core_setPc, State.core_setSeqState, State.core_modCore_self, State.core_modCore_self]
  exact ⟨_, _, rfl⟩

theorem State.stopCtx_seqState (s : State) (k : Nat) (c : CtxId) (r : Report) : (s.stopCtx k c r).seqState k c.val = 6 := by
  unfold State.stopCtx
  dsimp only
  rw [(((SameStates.refl _).setPc k c _).setFld (notState_FLG_WAIT k c) 63 63 0).seqState k c]
  exact State.seqState_setSeqState _ _ _ _

theorem SEQ_PC_ne_FLG_WAIT (k : Nat) (c : CtxId) : R.SEQ_PC k c.val ≠ R.FLG_WAIT k c.val := by
  have := c.isLt
  unfold R.SEQ_PC R.FLG_WAIT R.flgBase
  omega

theorem State.stopCtx_pc (s : State) (k : Nat) (c : CtxId) (r : Report) : (s.stopCtx k c r).pc k c.val = r.pc % 2 ^ 22 := by
  unfold State.stopCtx State.pc State.setPc
  dsimp only
  rw [State.fld_setFld_ne _ _ _ _ _ _ (SEQ_PC_ne_FLG_WAIT k c)]
  exact State.fld_setFld_self _ _ 21 0 _ (by omega)

/-! ## A fault taken (R161, R305) -/

/-- A fault of a context that has a kernel and has not faulted stops the context in a state that records the cause with the
partition where it is the first one there, and holds everything else as it was. -/
theorem State.faultCtx_eq_stopCtx {s : State} {k : Nat} {c : CtxId} (h0 : s.seqState k c.val ≠ 0)
    (h6 : s.seqState k c.val ≠ 6) (r : Report) :
    ∃ u : State, s.faultCtx k c r = u.stopCtx k c r ∧ u.cores = s.cores ∧ u.posns = s.posns ∧ u.hbm = s.hbm ∧
      ∀ p, s.partOf k c.val = some p → (u.part p).quar = (s.part p).quar.or (some (s.causeOf p k c.val r)) := by
  unfold State.faultCtx
  dsimp only
  rw [if_neg h0, if_neg h6]
  cases hp : s.partOf k c.val with
  | none => exact ⟨s, rfl, rfl, rfl, rfl, nofun⟩
  | some p =>
    cases hq : (s.part p).quar with
    | some q =>
      refine ⟨s, by simp [hq], rfl, rfl, rfl, fun p' hp' => ?_⟩
      obtain rfl := Option.some.inj hp'
      simp [hq]
    | none =>
      refine ⟨s.modPart p fun x => { x with quar := some (s.causeOf p k c.val r) }, by simp [hq], rfl, rfl, rfl,
        fun p' hp' => ?_⟩
      obtain rfl := Option.some.inj hp'
      simp [hq, State.part_modPart]

theorem State.faultCtx_taken {s : State} {k : Nat} {c : CtxId} (h0 : s.seqState k c.val ≠ 0) (h6 : s.seqState k c.val ≠ 6)
    (r : Report) : FaultTaken s (s.faultCtx k c r) k c r := by
  obtain ⟨u, hu, hcores, hposns, hhbm, hquar⟩ := State.faultCtx_eq_stopCtx h0 h6 r
  have hstop : u.SameStore (u.stopCtx k c r) := (State.SameStore.refl u).stopCtx k c r
  obtain ⟨x, y, hcore⟩ := u.stopCtx_core k c r
  rw [hu]
  exact {
    stopped := u.stopCtx_seqState k c r
    pc := u.stopCtx_pc k c r
    cause := fun p hp => by
      rw [hstop.part, hquar p hp]
      cases (s.part p).quar <;> rfl
    later := by
      rw [hcore]
      exact x.discard_queues c r.seq
    sregs := fun j d i => by
      rw [hstop.sregs]
      unfold State.sreg State.ctx
      rw [State.core_congr hcores]
    memory := ⟨hstop.posns.trans hposns, hstop.hbm.trans hhbm⟩ }

/-- An instruction that is ready and that its body refuses faults its context, which is in RUN when it issues. -/
theorem State.issue_fault {s : State} {k : Nat} {rs : List Nat} (h : s.ready k rs) (op : Nat) (f : IBits) (unit : Nat)
    {body : State → CtxId → Issued} {st : Status} {addr code : Nat}
    (hb : body (s.atIssue k) (s.running k) = .fault (s.atIssue k) st addr code) :
    FaultTaken (s.atIssue k) (s.issue k op f unit rs body) k (s.running k)
      { unit := unit, status := st, seq := ((s.atIssue k).core k).seqNo, pc := (s.atIssue k).runPc k, code := code,
        instr := instrWord op f, addr := addr } := by
  have hrun := h.seqState_atIssue
  rw [State.issue_ready h, hb, State.afterIssue, State.issueFault]
  simpa only [State.runPc, State.running_atIssue] using State.faultCtx_taken (by omega) (by omega) _

/-- A word is its opcode and its other bits (R157). -/
theorem instrWord_bits (w : Word64) : instrWord (bits w 63 56) (BitVec.ofNat 56 (bits w 55 0)) = w := by
  apply BitVec.eq_of_toNat_eq
  have hw := w.isLt
  simp only [instrWord, bits, natBits, BitVec.toNat_ofNat, Nat.shiftRight_eq_div_pow]
  omega

/-- A word with a reserved opcode issues as a fault with the status of its range (R158, R159 check 1). -/
theorem State.issueWord_reserved (s : State) (k : Nat) {w : Word64} {st : Status} (hop : opcodeStatus (bits w 63 56) = some st) :
    s.issueWord k w = s.issue k (bits w 63 56) (BitVec.ofNat 56 (bits w 55 0)) (opcodeUnit (bits w 63 56)) []
      fun s _ => .fault s st 0 0 := by
  unfold State.issueWord
  simp only [hop]

/-! ## The end of a kernel (R170, R291) -/

/-- A core that has completed is none that the descriptor of its kernel waits for, where the kernel's stamp is current. -/
theorem State.coreDone_left {s : State} {k c : Nat} {kn : Kernel} {d : Desc} (hkn : (s.ctx k c).kernel = some kn)
    (hep : ∀ p, s.partOf k c = some p → kn.epoch = (s.part p).epoch) (hd : d ∈ (s.coreDone k c).fe.descs) (hid : d.id = kn.desc) :
    k ∉ d.left := by
  have hdone : (s.coreDone k c).fe.descs =
      s.fe.descs.map (fun d => if d.id = kn.desc then { d with left := d.left.filter (· ≠ k) } else d) := by
    unfold State.coreDone State.ifCurrent
    rw [hkn]
    dsimp only
    cases hp : s.partOf k c with
    | none => rfl
    | some p =>
      dsimp only
      rw [if_pos (hep p hp)]
      rfl
  rw [hdone] at hd
  obtain ⟨e, -, rfl⟩ := List.mem_map.mp hd
  by_cases he : e.id = kn.desc
  · simp [he]
  · simp [he] at hid

end Sys2Proof.Machine
end

section
/-!
The ends of a kernel and the faults of a context (chapter 06).
-/

namespace Sys2Proof.Proofs

open Sys2Proof Sys2Proof.Machine

/-- END makes its context ENDING and goes on by one instruction (R170). -/
theorem endKernel_ending (k : CoreId) (s : State) (h : s.ready k.val []) :
    ∃ t, exec (.endKernel k 0) s = .next t ∧ t.seqState k.val (s.running k.val).val = 5 ∧ t.runPc k.val = s.runPc k.val + 8 ∧
      ∀ j c i, t.sreg j c i = s.sreg j c i := by
  have ht := State.issue_done h 0x3A 0 1 (body := fun s c => Issued.checked s [((0 : IBits).toNat ≠ 0, 0x0602)] fun _ =>
    .done (s.setSeqState k.val c.val 5)) rfl
  refine ⟨_, congrArg Host.Outcome.next ht, ?_, ?_, fun j c i => ?_⟩
  · rw [((State.SameStates.refl _).issued k.val (s.running k.val) _).seqState, State.seqState_setSeqState]
  · exact State.runPc_issued (State.running_atIssue s k.val k.val) h.runPc_lt
  · rw [State.issued_sreg, State.sreg_setSeqState, State.sreg_atIssue]

/-- KERNEL_COMPLETE of a context that is ENDING and has no work left takes its kernel away (R170, R291). -/
theorem kernelComplete_idle (k : CoreId) (c : CtxId) (s : State) (h5 : s.seqState k.val c.val = 5)
    (hw : (s.core k.val).workLeft c = false) :
    ∃ t, exec (.kernelComplete k c) s = .next t ∧ t.seqState k.val c.val = 0 ∧ (t.ctx k.val c.val).kernel = none ∧
      (∀ kn d, (s.ctx k.val c.val).kernel = some kn → (∀ p, s.partOf k.val c.val = some p → kn.epoch = (s.part p).epoch) →
        d ∈ t.fe.descs → d.id = kn.desc → k.val ∉ d.left) ∧
      (∀ j d i, t.sreg j d i = s.sreg j d i) ∧ t.posns = s.posns ∧ t.hbm = s.hbm := by
  have ht : exec (.kernelComplete k c) s = .next (((s.coreDone k.val c.val).modCtx k.val c.val
      (fun t => { t with kernel := none })).setSeqState k.val c.val 0) := congrArg Host.Outcome.next (if_pos ⟨h5, hw⟩)
  have hkeep := ((((State.SameStore.refl s).coreDone k.val c.val).modCtx k.val c.val
    (g := fun t => { t with kernel := none }) fun _ _ => rfl).setSeqState k.val c.val 0)
  refine ⟨_, ht, State.seqState_setSeqState _ _ _ _, ?_, fun kn d hkn hep hd hid => State.coreDone_left hkn hep hd hid, hkeep.sregs,
    hkeep.posns, hkeep.hbm⟩
  rw [State.ctx_setSeqState, State.ctx_modCtx_self]

/-- TRAP faults its context with GS_0606 and its code (R171). -/
theorem trap_faults (k : CoreId) (f : IBits) (s : State) (h : s.ready k.val []) (hf : bits f 55 16 = 0) :
    ∃ t, exec (.trap k f) s = .next t ∧ FaultTaken (s.atIssue k.val) t k.val (s.running k.val)
      { unit := 1, status := 0x0606, seq := ((s.atIssue k.val).core k.val).seqNo, pc := (s.atIssue k.val).runPc k.val,
        code := bits f 15 0, instr := instrWord 0x3B f, addr := 0 } :=
  ⟨_, rfl, State.issue_fault h 0x3B f 1 (by simp [hf, Issued.checked_single])⟩

/-- A reported fault of a context that has a kernel and has not faulted is taken (R161). -/
theorem contextFault_place (k : CoreId) (c : CtxId) (unit : Fin 8) (st : Status) (seq : Nat) (addr : Word64) (s : State)
    (h0 : s.seqState k.val c.val ≠ 0) (h6 : s.seqState k.val c.val ≠ 6) (hu : unit ≠ 0) (hst : st ≠ 0) :
    ∃ t, exec (.contextFault k c unit st addr (.place seq)) s = .next t ∧ FaultTaken s t k.val c
      { unit := unit.val, status := st, seq := seq, pc := (s.instrAt k.val c seq).1, instr := (s.instrAt k.val c seq).2,
        addr := addr.toNat } :=
  ⟨_, congrArg Host.Outcome.next (if_neg (not_or.mpr ⟨hu, hst⟩)), State.faultCtx_taken h0 h6 _⟩

/-- A word with a reserved opcode that reaches issue faults the running context with the status of its range (R158). -/
theorem contextFault_word (k : CoreId) (c : CtxId) (unit : Fin 8) (x : Status) (addr w : Word64) (st : Status) (s : State)
    (h : s.ready k.val []) (hop : opcodeStatus (bits w 63 56) = some st) :
    ∃ t, exec (.contextFault k c unit x addr (.word w)) s = .next t ∧ FaultTaken (s.atIssue k.val) t k.val (s.running k.val)
      { unit := opcodeUnit (bits w 63 56), status := st, seq := ((s.atIssue k.val).core k.val).seqNo,
        pc := (s.atIssue k.val).runPc k.val, instr := w, addr := 0 } := by
  refine ⟨_, congrArg Host.Outcome.next (State.issueWord_reserved s k.val hop), ?_⟩
  simpa only [instrWord_bits] using
    State.issue_fault h (bits w 63 56) (BitVec.ofNat 56 (bits w 55 0)) (opcodeUnit (bits w 63 56)) rfl

/-- Settles O7, a clause by its own lemma: the ends of a kernel, TRAP, the fault that a unit reports and the reserved opcode. -/
theorem kernelEndsAndFaults : Obligations.KernelEndsAndFaults := by
  unfold Obligations.KernelEndsAndFaults
  exact ⟨⟨endKernel_ending, kernelComplete_idle⟩, trap_faults, contextFault_place, contextFault_word⟩

end Sys2Proof.Proofs
end
